-- ==== Sys2Proof/Word.lean ====
section
/-! DEFINITION. The word types of 00_scope.md rule R6: bus data (`DATA_W = 8`) and CPU addresses (`ADDR_W = 16`). -/

namespace Sys2Proof

/-- `u8`: a bus byte or an 8-bit register. -/
abbrev Byte := BitVec 8

/-- `u16`: a CPU address or the program counter. -/
abbrev Addr := BitVec 16

end Sys2Proof
end

