-- ==== Sys2Proof/Syntax.lean ====
section
/-! DEFINITION. The instruction set as syntax: the classes and addressing modes of 30_encoding.md rule R101 and
40_scheduler.md rule R155, and the one inductive of instructions, a constructor for every admitted row of the opcode table
(rule R104) and one for the rows named UNDEFINED (rule R106). -/

namespace Sys2Proof

/-- The index register of an absolute-indexed mode, or none (R101, R136). -/
inductive Index where
  | noIndex | x | y
  deriving DecidableEq, Repr

/-- The addressing modes of rule R101; `noMode` is the mode of an Undefined table entry. -/
inductive Mode where
  | implied | accumulator | immediate | zeroPage
  | absolute (idx : Index)
  | relative | noMode
  deriving DecidableEq, Repr

/-- The read-class operations (R155): each has a hook `Exec(op, M)`. -/
inductive ReadOp where
  | lda | ldx | ldy | adc | sbc | and | ora | eor | cmp | cpx | cpy | bit
  deriving DecidableEq, Repr

/-- The store-class operations (R155): each has a hook `StoreSrc(op)`. -/
inductive StoreOp where
  | sta | stx | sty
  deriving DecidableEq, Repr

/-- The implied-class operations (R155): each has a hook `Implied(op)`. -/
inductive ImpliedOp where
  | tax | tay | txa | tya | tsx | txs | inx | iny | dex | dey | asl | lsr | rol | ror | clc
  | sec | cli | sei | clv | cld | sed | nop
  deriving DecidableEq, Repr

/-- The branch-class operations (R155): each has a hook `Cond(op)`. -/
inductive BranchOp where
  | bpl | bmi | bvc | bvs | bcc | bcs | bne | beq
  deriving DecidableEq, Repr

/-- The class of a table entry with its operation (R155); `undef` is the entry `Undefined` (R106). -/
inductive OpClass where
  | read (o : ReadOp)
  | store (o : StoreOp)
  | implied (o : ImpliedOp)
  | branch (o : BranchOp)
  | jump
  | undef
  deriving DecidableEq, Repr

/-- One entry of the instruction table `T` (R31, R137). -/
structure Entry where
  cls : OpClass
  mode : Mode
  deriving DecidableEq, Repr

/-- The instructions. Operands are as rule R102 assembles them: an immediate, zero-page or offset byte as it stands, an
absolute address as the 16-bit value `b2:b1`. -/
inductive Instr where
  /-- LDA #m, opcode 0xA9 (R180). -/
  | ldaImm (m : Byte)
  /-- LDA z, opcode 0xA5 (R180). -/
  | ldaZp (z : Byte)
  /-- LDA a, opcode 0xAD (R180). -/
  | ldaAbs (a : Addr)
  /-- LDA a,X, opcode 0xBD (R180). -/
  | ldaAbsX (a : Addr)
  /-- LDA a,Y, opcode 0xB9 (R180). -/
  | ldaAbsY (a : Addr)
  /-- LDX #m, opcode 0xA2 (R181). -/
  | ldxImm (m : Byte)
  /-- LDX z, opcode 0xA6 (R181). -/
  | ldxZp (z : Byte)
  /-- LDX a, opcode 0xAE (R181). -/
  | ldxAbs (a : Addr)
  /-- LDX a,Y, opcode 0xBE (R181). -/
  | ldxAbsY (a : Addr)
  /-- LDY #m, opcode 0xA0 (R182). -/
  | ldyImm (m : Byte)
  /-- LDY z, opcode 0xA4 (R182). -/
  | ldyZp (z : Byte)
  /-- LDY a, opcode 0xAC (R182). -/
  | ldyAbs (a : Addr)
  /-- LDY a,X, opcode 0xBC (R182). -/
  | ldyAbsX (a : Addr)
  /-- STA z, opcode 0x85 (R183). -/
  | staZp (z : Byte)
  /-- STA a, opcode 0x8D (R183). -/
  | staAbs (a : Addr)
  /-- STA a,X, opcode 0x9D (R183). -/
  | staAbsX (a : Addr)
  /-- STA a,Y, opcode 0x99 (R183). -/
  | staAbsY (a : Addr)
  /-- STX z, opcode 0x86 (R184). -/
  | stxZp (z : Byte)
  /-- STX a, opcode 0x8E (R184). -/
  | stxAbs (a : Addr)
  /-- STY z, opcode 0x84 (R185). -/
  | styZp (z : Byte)
  /-- STY a, opcode 0x8C (R185). -/
  | styAbs (a : Addr)
  /-- TAX, opcode 0xAA (R186). -/
  | tax
  /-- TAY, opcode 0xA8 (R187). -/
  | tay
  /-- TXA, opcode 0x8A (R188). -/
  | txa
  /-- TYA, opcode 0x98 (R189). -/
  | tya
  /-- TSX, opcode 0xBA (R190). -/
  | tsx
  /-- TXS, opcode 0x9A (R191). -/
  | txs
  /-- ADC #m, opcode 0x69 (R222). -/
  | adcImm (m : Byte)
  /-- ADC z, opcode 0x65 (R222). -/
  | adcZp (z : Byte)
  /-- ADC a, opcode 0x6D (R222). -/
  | adcAbs (a : Addr)
  /-- ADC a,X, opcode 0x7D (R222). -/
  | adcAbsX (a : Addr)
  /-- ADC a,Y, opcode 0x79 (R222). -/
  | adcAbsY (a : Addr)
  /-- SBC #m, opcode 0xE9 (R223). -/
  | sbcImm (m : Byte)
  /-- SBC z, opcode 0xE5 (R223). -/
  | sbcZp (z : Byte)
  /-- SBC a, opcode 0xED (R223). -/
  | sbcAbs (a : Addr)
  /-- SBC a,X, opcode 0xFD (R223). -/
  | sbcAbsX (a : Addr)
  /-- SBC a,Y, opcode 0xF9 (R223). -/
  | sbcAbsY (a : Addr)
  /-- AND #m, opcode 0x29 (R224). -/
  | andImm (m : Byte)
  /-- AND z, opcode 0x25 (R224). -/
  | andZp (z : Byte)
  /-- AND a, opcode 0x2D (R224). -/
  | andAbs (a : Addr)
  /-- AND a,X, opcode 0x3D (R224). -/
  | andAbsX (a : Addr)
  /-- AND a,Y, opcode 0x39 (R224). -/
  | andAbsY (a : Addr)
  /-- ORA #m, opcode 0x09 (R225). -/
  | oraImm (m : Byte)
  /-- ORA z, opcode 0x05 (R225). -/
  | oraZp (z : Byte)
  /-- ORA a, opcode 0x0D (R225). -/
  | oraAbs (a : Addr)
  /-- ORA a,X, opcode 0x1D (R225). -/
  | oraAbsX (a : Addr)
  /-- ORA a,Y, opcode 0x19 (R225). -/
  | oraAbsY (a : Addr)
  /-- EOR #m, opcode 0x49 (R226). -/
  | eorImm (m : Byte)
  /-- EOR z, opcode 0x45 (R226). -/
  | eorZp (z : Byte)
  /-- EOR a, opcode 0x4D (R226). -/
  | eorAbs (a : Addr)
  /-- EOR a,X, opcode 0x5D (R226). -/
  | eorAbsX (a : Addr)
  /-- EOR a,Y, opcode 0x59 (R226). -/
  | eorAbsY (a : Addr)
  /-- CMP #m, opcode 0xC9 (R227). -/
  | cmpImm (m : Byte)
  /-- CMP z, opcode 0xC5 (R227). -/
  | cmpZp (z : Byte)
  /-- CMP a, opcode 0xCD (R227). -/
  | cmpAbs (a : Addr)
  /-- CMP a,X, opcode 0xDD (R227). -/
  | cmpAbsX (a : Addr)
  /-- CMP a,Y, opcode 0xD9 (R227). -/
  | cmpAbsY (a : Addr)
  /-- CPX #m, opcode 0xE0 (R228). -/
  | cpxImm (m : Byte)
  /-- CPX z, opcode 0xE4 (R228). -/
  | cpxZp (z : Byte)
  /-- CPX a, opcode 0xEC (R228). -/
  | cpxAbs (a : Addr)
  /-- CPY #m, opcode 0xC0 (R229). -/
  | cpyImm (m : Byte)
  /-- CPY z, opcode 0xC4 (R229). -/
  | cpyZp (z : Byte)
  /-- CPY a, opcode 0xCC (R229). -/
  | cpyAbs (a : Addr)
  /-- BIT z, opcode 0x24 (R230). -/
  | bitZp (z : Byte)
  /-- BIT a, opcode 0x2C (R230). -/
  | bitAbs (a : Addr)
  /-- INX, opcode 0xE8 (R231). -/
  | inx
  /-- INY, opcode 0xC8 (R232). -/
  | iny
  /-- DEX, opcode 0xCA (R233). -/
  | dex
  /-- DEY, opcode 0x88 (R234). -/
  | dey
  /-- ASL A, opcode 0x0A (R235). -/
  | asl
  /-- LSR A, opcode 0x4A (R236). -/
  | lsr
  /-- ROL A, opcode 0x2A (R237). -/
  | rol
  /-- ROR A, opcode 0x6A (R238). -/
  | ror
  /-- BPL rel, opcode 0x10 (R281). -/
  | bpl (off : Byte)
  /-- BMI rel, opcode 0x30 (R282). -/
  | bmi (off : Byte)
  /-- BVC rel, opcode 0x50 (R283). -/
  | bvc (off : Byte)
  /-- BVS rel, opcode 0x70 (R284). -/
  | bvs (off : Byte)
  /-- BCC rel, opcode 0x90 (R285). -/
  | bcc (off : Byte)
  /-- BCS rel, opcode 0xB0 (R286). -/
  | bcs (off : Byte)
  /-- BNE rel, opcode 0xD0 (R287). -/
  | bne (off : Byte)
  /-- BEQ rel, opcode 0xF0 (R288). -/
  | beq (off : Byte)
  /-- JMP a, opcode 0x4C (R289). -/
  | jmp (a : Addr)
  /-- CLC, opcode 0x18 (R290). -/
  | clc
  /-- SEC, opcode 0x38 (R291). -/
  | sec
  /-- CLI, opcode 0x58 (R292). -/
  | cli
  /-- SEI, opcode 0x78 (R293). -/
  | sei
  /-- CLV, opcode 0xB8 (R294). -/
  | clv
  /-- CLD, opcode 0xD8 (R295). -/
  | cld
  /-- SED, opcode 0xF8 (R296). -/
  | sed
  /-- NOP, opcode 0xEA (R297). -/
  | nop
  /-- The 166 opcode bytes that rule R104 does not admit (R106, R107). -/
  | undefined (op : Byte)
  deriving DecidableEq, Repr

end Sys2Proof
end

