-- ==== Sys2Proof/WellFormed.lean ====
section
/-! DEFINITION. Which instruction terms are well formed. Every operand value of an admitted instruction is legal
(30_encoding.md rule R102), so the one check is that `undefined op` names a byte the opcode map of rule R105 leaves undefined. -/

namespace Sys2Proof

/-- The admitted opcode bytes, row by row of the map by opcode byte (R105), independent of the decoder. -/
def admittedBytes : List Nat :=
  [0x05, 0x09, 0x0A, 0x0D] ++
  [0x10, 0x18, 0x19, 0x1D] ++
  [0x24, 0x25, 0x29, 0x2A, 0x2C, 0x2D] ++
  [0x30, 0x38, 0x39, 0x3D] ++
  [0x45, 0x49, 0x4A, 0x4C, 0x4D] ++
  [0x50, 0x58, 0x59, 0x5D] ++
  [0x65, 0x69, 0x6A, 0x6D] ++
  [0x70, 0x78, 0x79, 0x7D] ++
  [0x84, 0x85, 0x86, 0x88, 0x8A, 0x8C, 0x8D, 0x8E] ++
  [0x90, 0x98, 0x99, 0x9A, 0x9D] ++
  [0xA0, 0xA2, 0xA4, 0xA5, 0xA6, 0xA8, 0xA9, 0xAA, 0xAC, 0xAD, 0xAE] ++
  [0xB0, 0xB8, 0xB9, 0xBA, 0xBC, 0xBD, 0xBE] ++
  [0xC0, 0xC4, 0xC5, 0xC8, 0xC9, 0xCA, 0xCC, 0xCD] ++
  [0xD0, 0xD8, 0xD9, 0xDD] ++
  [0xE0, 0xE4, 0xE5, 0xE8, 0xE9, 0xEA, 0xEC, 0xED] ++
  [0xF0, 0xF8, 0xF9, 0xFD]

/-- Whether the opcode map defines the byte (R104, R105). -/
def isAdmitted (op : Byte) : Bool := admittedBytes.contains op.toNat

/-- Well-formedness of an instruction term. -/
def Instr.wf : Instr → Bool
  | .undefined op => !isAdmitted op
  | _ => true

end Sys2Proof
end

