-- ==== Sys2Proof/Decode.lean ====
section
/-! DEFINITION. Decoding and encoding (30_encoding.md rules R100-R108): the opcode byte alone selects the instruction and its
addressing mode; operand bytes follow, a 16-bit operand with its low byte first. The instruction table `T` (10_state.md rule R31)
and the assembler spelling (R109) stand here too. -/

namespace Sys2Proof

/-- `hi:lo`, the 16-bit value `hi * 256 + lo` (R6). -/
def concat (hi lo : Byte) : Addr := hi ++ lo

/-- The low byte of a 16-bit value (R6). -/
def loByte (a : Addr) : Byte := a.extractLsb' 0 8

/-- The high byte of a 16-bit value (R6). -/
def hiByte (a : Addr) : Byte := a.extractLsb' 8 8

/-- `zext_16(v)` (R7). -/
def zext16 (v : Byte) : Addr := v.setWidth 16

/-- `sext_16(v)` (R7). -/
def sext16 (v : Byte) : Addr := v.signExtend 16

/-- The opcode map of rule R104, with the operand bytes `b1` and `b2` an instruction may have. Every byte that is not in the map
is `undefined` (R106). -/
def decodeBytes (op b1 b2 : Byte) : Instr :=
  match op.toNat with
  | 0xA9 => .ldaImm b1
  | 0xA5 => .ldaZp b1
  | 0xAD => .ldaAbs (concat b2 b1)
  | 0xBD => .ldaAbsX (concat b2 b1)
  | 0xB9 => .ldaAbsY (concat b2 b1)
  | 0xA2 => .ldxImm b1
  | 0xA6 => .ldxZp b1
  | 0xAE => .ldxAbs (concat b2 b1)
  | 0xBE => .ldxAbsY (concat b2 b1)
  | 0xA0 => .ldyImm b1
  | 0xA4 => .ldyZp b1
  | 0xAC => .ldyAbs (concat b2 b1)
  | 0xBC => .ldyAbsX (concat b2 b1)
  | 0x85 => .staZp b1
  | 0x8D => .staAbs (concat b2 b1)
  | 0x9D => .staAbsX (concat b2 b1)
  | 0x99 => .staAbsY (concat b2 b1)
  | 0x86 => .stxZp b1
  | 0x8E => .stxAbs (concat b2 b1)
  | 0x84 => .styZp b1
  | 0x8C => .styAbs (concat b2 b1)
  | 0xAA => .tax
  | 0xA8 => .tay
  | 0x8A => .txa
  | 0x98 => .tya
  | 0xBA => .tsx
  | 0x9A => .txs
  | 0x69 => .adcImm b1
  | 0x65 => .adcZp b1
  | 0x6D => .adcAbs (concat b2 b1)
  | 0x7D => .adcAbsX (concat b2 b1)
  | 0x79 => .adcAbsY (concat b2 b1)
  | 0xE9 => .sbcImm b1
  | 0xE5 => .sbcZp b1
  | 0xED => .sbcAbs (concat b2 b1)
  | 0xFD => .sbcAbsX (concat b2 b1)
  | 0xF9 => .sbcAbsY (concat b2 b1)
  | 0x29 => .andImm b1
  | 0x25 => .andZp b1
  | 0x2D => .andAbs (concat b2 b1)
  | 0x3D => .andAbsX (concat b2 b1)
  | 0x39 => .andAbsY (concat b2 b1)
  | 0x09 => .oraImm b1
  | 0x05 => .oraZp b1
  | 0x0D => .oraAbs (concat b2 b1)
  | 0x1D => .oraAbsX (concat b2 b1)
  | 0x19 => .oraAbsY (concat b2 b1)
  | 0x49 => .eorImm b1
  | 0x45 => .eorZp b1
  | 0x4D => .eorAbs (concat b2 b1)
  | 0x5D => .eorAbsX (concat b2 b1)
  | 0x59 => .eorAbsY (concat b2 b1)
  | 0xC9 => .cmpImm b1
  | 0xC5 => .cmpZp b1
  | 0xCD => .cmpAbs (concat b2 b1)
  | 0xDD => .cmpAbsX (concat b2 b1)
  | 0xD9 => .cmpAbsY (concat b2 b1)
  | 0xE0 => .cpxImm b1
  | 0xE4 => .cpxZp b1
  | 0xEC => .cpxAbs (concat b2 b1)
  | 0xC0 => .cpyImm b1
  | 0xC4 => .cpyZp b1
  | 0xCC => .cpyAbs (concat b2 b1)
  | 0x24 => .bitZp b1
  | 0x2C => .bitAbs (concat b2 b1)
  | 0xE8 => .inx
  | 0xC8 => .iny
  | 0xCA => .dex
  | 0x88 => .dey
  | 0x0A => .asl
  | 0x4A => .lsr
  | 0x2A => .rol
  | 0x6A => .ror
  | 0x10 => .bpl b1
  | 0x30 => .bmi b1
  | 0x50 => .bvc b1
  | 0x70 => .bvs b1
  | 0x90 => .bcc b1
  | 0xB0 => .bcs b1
  | 0xD0 => .bne b1
  | 0xF0 => .beq b1
  | 0x4C => .jmp (concat b2 b1)
  | 0x18 => .clc
  | 0x38 => .sec
  | 0x58 => .cli
  | 0x78 => .sei
  | 0xB8 => .clv
  | 0xD8 => .cld
  | 0xF8 => .sed
  | 0xEA => .nop
  | _ => .undefined op

/-- The table entry of each instruction: its class and operation (R155) and its addressing mode (R101, R104). -/
def Instr.entry : Instr → Entry
  | .ldaImm _ => ⟨.read .lda, .immediate⟩
  | .ldaZp _ => ⟨.read .lda, .zeroPage⟩
  | .ldaAbs _ => ⟨.read .lda, .absolute .noIndex⟩
  | .ldaAbsX _ => ⟨.read .lda, .absolute .x⟩
  | .ldaAbsY _ => ⟨.read .lda, .absolute .y⟩
  | .ldxImm _ => ⟨.read .ldx, .immediate⟩
  | .ldxZp _ => ⟨.read .ldx, .zeroPage⟩
  | .ldxAbs _ => ⟨.read .ldx, .absolute .noIndex⟩
  | .ldxAbsY _ => ⟨.read .ldx, .absolute .y⟩
  | .ldyImm _ => ⟨.read .ldy, .immediate⟩
  | .ldyZp _ => ⟨.read .ldy, .zeroPage⟩
  | .ldyAbs _ => ⟨.read .ldy, .absolute .noIndex⟩
  | .ldyAbsX _ => ⟨.read .ldy, .absolute .x⟩
  | .staZp _ => ⟨.store .sta, .zeroPage⟩
  | .staAbs _ => ⟨.store .sta, .absolute .noIndex⟩
  | .staAbsX _ => ⟨.store .sta, .absolute .x⟩
  | .staAbsY _ => ⟨.store .sta, .absolute .y⟩
  | .stxZp _ => ⟨.store .stx, .zeroPage⟩
  | .stxAbs _ => ⟨.store .stx, .absolute .noIndex⟩
  | .styZp _ => ⟨.store .sty, .zeroPage⟩
  | .styAbs _ => ⟨.store .sty, .absolute .noIndex⟩
  | .tax => ⟨.implied .tax, .implied⟩
  | .tay => ⟨.implied .tay, .implied⟩
  | .txa => ⟨.implied .txa, .implied⟩
  | .tya => ⟨.implied .tya, .implied⟩
  | .tsx => ⟨.implied .tsx, .implied⟩
  | .txs => ⟨.implied .txs, .implied⟩
  | .adcImm _ => ⟨.read .adc, .immediate⟩
  | .adcZp _ => ⟨.read .adc, .zeroPage⟩
  | .adcAbs _ => ⟨.read .adc, .absolute .noIndex⟩
  | .adcAbsX _ => ⟨.read .adc, .absolute .x⟩
  | .adcAbsY _ => ⟨.read .adc, .absolute .y⟩
  | .sbcImm _ => ⟨.read .sbc, .immediate⟩
  | .sbcZp _ => ⟨.read .sbc, .zeroPage⟩
  | .sbcAbs _ => ⟨.read .sbc, .absolute .noIndex⟩
  | .sbcAbsX _ => ⟨.read .sbc, .absolute .x⟩
  | .sbcAbsY _ => ⟨.read .sbc, .absolute .y⟩
  | .andImm _ => ⟨.read .and, .immediate⟩
  | .andZp _ => ⟨.read .and, .zeroPage⟩
  | .andAbs _ => ⟨.read .and, .absolute .noIndex⟩
  | .andAbsX _ => ⟨.read .and, .absolute .x⟩
  | .andAbsY _ => ⟨.read .and, .absolute .y⟩
  | .oraImm _ => ⟨.read .ora, .immediate⟩
  | .oraZp _ => ⟨.read .ora, .zeroPage⟩
  | .oraAbs _ => ⟨.read .ora, .absolute .noIndex⟩
  | .oraAbsX _ => ⟨.read .ora, .absolute .x⟩
  | .oraAbsY _ => ⟨.read .ora, .absolute .y⟩
  | .eorImm _ => ⟨.read .eor, .immediate⟩
  | .eorZp _ => ⟨.read .eor, .zeroPage⟩
  | .eorAbs _ => ⟨.read .eor, .absolute .noIndex⟩
  | .eorAbsX _ => ⟨.read .eor, .absolute .x⟩
  | .eorAbsY _ => ⟨.read .eor, .absolute .y⟩
  | .cmpImm _ => ⟨.read .cmp, .immediate⟩
  | .cmpZp _ => ⟨.read .cmp, .zeroPage⟩
  | .cmpAbs _ => ⟨.read .cmp, .absolute .noIndex⟩
  | .cmpAbsX _ => ⟨.read .cmp, .absolute .x⟩
  | .cmpAbsY _ => ⟨.read .cmp, .absolute .y⟩
  | .cpxImm _ => ⟨.read .cpx, .immediate⟩
  | .cpxZp _ => ⟨.read .cpx, .zeroPage⟩
  | .cpxAbs _ => ⟨.read .cpx, .absolute .noIndex⟩
  | .cpyImm _ => ⟨.read .cpy, .immediate⟩
  | .cpyZp _ => ⟨.read .cpy, .zeroPage⟩
  | .cpyAbs _ => ⟨.read .cpy, .absolute .noIndex⟩
  | .bitZp _ => ⟨.read .bit, .zeroPage⟩
  | .bitAbs _ => ⟨.read .bit, .absolute .noIndex⟩
  | .inx => ⟨.implied .inx, .implied⟩
  | .iny => ⟨.implied .iny, .implied⟩
  | .dex => ⟨.implied .dex, .implied⟩
  | .dey => ⟨.implied .dey, .implied⟩
  | .asl => ⟨.implied .asl, .accumulator⟩
  | .lsr => ⟨.implied .lsr, .accumulator⟩
  | .rol => ⟨.implied .rol, .accumulator⟩
  | .ror => ⟨.implied .ror, .accumulator⟩
  | .bpl _ => ⟨.branch .bpl, .relative⟩
  | .bmi _ => ⟨.branch .bmi, .relative⟩
  | .bvc _ => ⟨.branch .bvc, .relative⟩
  | .bvs _ => ⟨.branch .bvs, .relative⟩
  | .bcc _ => ⟨.branch .bcc, .relative⟩
  | .bcs _ => ⟨.branch .bcs, .relative⟩
  | .bne _ => ⟨.branch .bne, .relative⟩
  | .beq _ => ⟨.branch .beq, .relative⟩
  | .jmp _ => ⟨.jump, .absolute .noIndex⟩
  | .clc => ⟨.implied .clc, .implied⟩
  | .sec => ⟨.implied .sec, .implied⟩
  | .cli => ⟨.implied .cli, .implied⟩
  | .sei => ⟨.implied .sei, .implied⟩
  | .clv => ⟨.implied .clv, .implied⟩
  | .cld => ⟨.implied .cld, .implied⟩
  | .sed => ⟨.implied .sed, .implied⟩
  | .nop => ⟨.implied .nop, .implied⟩
  | .undefined _ => ⟨.undef, .noMode⟩

/-- The instruction table `T` (R31): 256 entries, created once and never changed. -/
def tableEntry (op : Byte) : Entry := (decodeBytes op 0 0).entry

/-- The number of bytes of an instruction in each mode (R101). An Undefined entry has no length (R108): the CPU halts before
fetching anything after the opcode byte, so a byte list is read on after that one byte.
DESIGN CHOICE (log 15), safe. -/
def Mode.length : Mode → Nat
  | .implied => 1
  | .accumulator => 1
  | .immediate => 2
  | .zeroPage => 2
  | .absolute _ => 3
  | .relative => 2
  | .noMode => 1

/-- The length of an instruction in bytes. -/
def Instr.length (i : Instr) : Nat := i.entry.mode.length

/-- Why a list of bytes is not an instruction followed by more bytes. An opcode byte with no routine is no error: it is
the instruction `undefined` (R106). -/
inductive DecodeError where
  /-- There is no opcode byte. -/
  | noOpcode
  /-- The list ends before the operand bytes of the opcode `op` (R101). -/
  | missingOperand (op : Byte)
  deriving DecidableEq, Repr

/-- What decoding a list of bytes answers: an instruction and the bytes after it, or a rejection by name. -/
inductive Decoded where
  | instr (i : Instr) (rest : List Byte)
  | rejected (e : DecodeError)
  deriving DecidableEq, Repr

/-- Decode the first instruction of a list of bytes, and the bytes after it (R100, R108). -/
def decode : List Byte → Decoded
  | [] => .rejected .noOpcode
  | op :: rest =>
    let i := decodeBytes op (rest.getD 0 0) (rest.getD 1 0)
    if rest.length + 1 < i.length then .rejected (.missingOperand op)
    else .instr i (rest.drop (i.length - 1))

/-- The bytes of an instruction, in fetch order (R101, R104). -/
def encode : Instr → List Byte
  | .ldaImm m => [0xA9, m]
  | .ldaZp z => [0xA5, z]
  | .ldaAbs a => [0xAD, loByte a, hiByte a]
  | .ldaAbsX a => [0xBD, loByte a, hiByte a]
  | .ldaAbsY a => [0xB9, loByte a, hiByte a]
  | .ldxImm m => [0xA2, m]
  | .ldxZp z => [0xA6, z]
  | .ldxAbs a => [0xAE, loByte a, hiByte a]
  | .ldxAbsY a => [0xBE, loByte a, hiByte a]
  | .ldyImm m => [0xA0, m]
  | .ldyZp z => [0xA4, z]
  | .ldyAbs a => [0xAC, loByte a, hiByte a]
  | .ldyAbsX a => [0xBC, loByte a, hiByte a]
  | .staZp z => [0x85, z]
  | .staAbs a => [0x8D, loByte a, hiByte a]
  | .staAbsX a => [0x9D, loByte a, hiByte a]
  | .staAbsY a => [0x99, loByte a, hiByte a]
  | .stxZp z => [0x86, z]
  | .stxAbs a => [0x8E, loByte a, hiByte a]
  | .styZp z => [0x84, z]
  | .styAbs a => [0x8C, loByte a, hiByte a]
  | .tax => [0xAA]
  | .tay => [0xA8]
  | .txa => [0x8A]
  | .tya => [0x98]
  | .tsx => [0xBA]
  | .txs => [0x9A]
  | .adcImm m => [0x69, m]
  | .adcZp z => [0x65, z]
  | .adcAbs a => [0x6D, loByte a, hiByte a]
  | .adcAbsX a => [0x7D, loByte a, hiByte a]
  | .adcAbsY a => [0x79, loByte a, hiByte a]
  | .sbcImm m => [0xE9, m]
  | .sbcZp z => [0xE5, z]
  | .sbcAbs a => [0xED, loByte a, hiByte a]
  | .sbcAbsX a => [0xFD, loByte a, hiByte a]
  | .sbcAbsY a => [0xF9, loByte a, hiByte a]
  | .andImm m => [0x29, m]
  | .andZp z => [0x25, z]
  | .andAbs a => [0x2D, loByte a, hiByte a]
  | .andAbsX a => [0x3D, loByte a, hiByte a]
  | .andAbsY a => [0x39, loByte a, hiByte a]
  | .oraImm m => [0x09, m]
  | .oraZp z => [0x05, z]
  | .oraAbs a => [0x0D, loByte a, hiByte a]
  | .oraAbsX a => [0x1D, loByte a, hiByte a]
  | .oraAbsY a => [0x19, loByte a, hiByte a]
  | .eorImm m => [0x49, m]
  | .eorZp z => [0x45, z]
  | .eorAbs a => [0x4D, loByte a, hiByte a]
  | .eorAbsX a => [0x5D, loByte a, hiByte a]
  | .eorAbsY a => [0x59, loByte a, hiByte a]
  | .cmpImm m => [0xC9, m]
  | .cmpZp z => [0xC5, z]
  | .cmpAbs a => [0xCD, loByte a, hiByte a]
  | .cmpAbsX a => [0xDD, loByte a, hiByte a]
  | .cmpAbsY a => [0xD9, loByte a, hiByte a]
  | .cpxImm m => [0xE0, m]
  | .cpxZp z => [0xE4, z]
  | .cpxAbs a => [0xEC, loByte a, hiByte a]
  | .cpyImm m => [0xC0, m]
  | .cpyZp z => [0xC4, z]
  | .cpyAbs a => [0xCC, loByte a, hiByte a]
  | .bitZp z => [0x24, z]
  | .bitAbs a => [0x2C, loByte a, hiByte a]
  | .inx => [0xE8]
  | .iny => [0xC8]
  | .dex => [0xCA]
  | .dey => [0x88]
  | .asl => [0x0A]
  | .lsr => [0x4A]
  | .rol => [0x2A]
  | .ror => [0x6A]
  | .bpl off => [0x10, off]
  | .bmi off => [0x30, off]
  | .bvc off => [0x50, off]
  | .bvs off => [0x70, off]
  | .bcc off => [0x90, off]
  | .bcs off => [0xB0, off]
  | .bne off => [0xD0, off]
  | .beq off => [0xF0, off]
  | .jmp a => [0x4C, loByte a, hiByte a]
  | .clc => [0x18]
  | .sec => [0x38]
  | .cli => [0x58]
  | .sei => [0x78]
  | .clv => [0xB8]
  | .cld => [0xD8]
  | .sed => [0xF8]
  | .nop => [0xEA]
  | .undefined op => [op]

/-- The instruction the decoder reads from the bytes of `w`, the first byte in its low bits, only `nbits` of them given and every
later bit 0 (the longest instruction has three bytes). -/
def decodeTableWord (nbits w : Nat) : Option Instr :=
  let v := w % 2 ^ nbits
  match decode [BitVec.ofNat 8 v, BitVec.ofNat 8 (v / 256), BitVec.ofNat 8 (v / 65536)] with
  | .instr i _ => some i
  | .rejected _ => none

/-- The informative reading `aaabbbcc` of an opcode byte (R103): operation, mode and group. No decoder uses it. -/
def opcodeFields (op : Byte) : BitVec 3 × BitVec 3 × BitVec 2 :=
  (op.extractLsb' 5 3, op.extractLsb' 2 3, op.extractLsb' 0 2)

/-- The mnemonic of a table entry (R104). -/
def OpClass.mnemonic : OpClass → String
  | .read .lda => "LDA"
  | .read .ldx => "LDX"
  | .read .ldy => "LDY"
  | .read .adc => "ADC"
  | .read .sbc => "SBC"
  | .read .and => "AND"
  | .read .ora => "ORA"
  | .read .eor => "EOR"
  | .read .cmp => "CMP"
  | .read .cpx => "CPX"
  | .read .cpy => "CPY"
  | .read .bit => "BIT"
  | .store .sta => "STA"
  | .store .stx => "STX"
  | .store .sty => "STY"
  | .implied .tax => "TAX"
  | .implied .tay => "TAY"
  | .implied .txa => "TXA"
  | .implied .tya => "TYA"
  | .implied .tsx => "TSX"
  | .implied .txs => "TXS"
  | .implied .inx => "INX"
  | .implied .iny => "INY"
  | .implied .dex => "DEX"
  | .implied .dey => "DEY"
  | .implied .asl => "ASL"
  | .implied .lsr => "LSR"
  | .implied .rol => "ROL"
  | .implied .ror => "ROR"
  | .implied .clc => "CLC"
  | .implied .sec => "SEC"
  | .implied .cli => "CLI"
  | .implied .sei => "SEI"
  | .implied .clv => "CLV"
  | .implied .cld => "CLD"
  | .implied .sed => "SED"
  | .implied .nop => "NOP"
  | .branch .bpl => "BPL"
  | .branch .bmi => "BMI"
  | .branch .bvc => "BVC"
  | .branch .bvs => "BVS"
  | .branch .bcc => "BCC"
  | .branch .bcs => "BCS"
  | .branch .bne => "BNE"
  | .branch .beq => "BEQ"
  | .jump => "JMP"
  | .undef => "UNDEFINED"

/-- One hexadecimal digit. -/
def hexDigit (n : Nat) : Char := "0123456789ABCDEF".toList.getD n '0'

/-- A byte as two hexadecimal digits. -/
def hexByte (b : Byte) : String := String.ofList [hexDigit (b.toNat / 16), hexDigit (b.toNat % 16)]

/-- The offset of a branch written `*+d`, `*` the address of the branch opcode (R109). -/
def relativeText (off : Byte) : String :=
  let d := off.toInt + 2
  if d < 0 then "*-" ++ toString d.natAbs else "*+" ++ toString d.natAbs

/-- The assembler spelling of an instruction (R109). Upper-case digits and a decimal distance are the model's (log 19). -/
def Instr.asm (i : Instr) : String :=
  let b1 := hexByte ((encode i).getD 1 0)
  let b2 := hexByte ((encode i).getD 2 0)
  i.entry.cls.mnemonic ++
    match i.entry.mode with
    | .implied => ""
    | .accumulator => " A"
    | .immediate => " #$" ++ b1
    | .zeroPage => " $" ++ b1
    | .absolute .noIndex => " $" ++ b2 ++ b1
    | .absolute .x => " $" ++ b2 ++ b1 ++ ",X"
    | .absolute .y => " $" ++ b2 ++ b1 ++ ",Y"
    | .relative => " " ++ relativeText ((encode i).getD 1 0)
    | .noMode => ""

end Sys2Proof
end

