-- ==== Sys2Proof/Config.lean ====
section
/-! DEFINITION. The parameters of 00_scope.md rule R5: what one block fixes at construction and never changes. -/

namespace Sys2Proof.Machine

/-- A byte store: (offset, byte) pairs in canonical form (see `Memory.wf`), used for RAM and for program storage. -/
abbrev Memory := List Host.Cell

end Sys2Proof.Machine

namespace Sys2Proof

/-- `UNMAPPED_POLICY` (R5, R66): what a bus step at an unmapped address does beside reading 0 or dropping the write. -/
inductive UnmappedPolicy where
  /-- nothing (the default) -/
  | zero
  /-- it also halts the CPU with `UnmappedAccess` (R333) -/
  | fault
  deriving DecidableEq, Repr

/-- The parameters of one block (R5, R33, R351). They are carried in `State` as a field that no rule changes, so that a claim about
every state is a claim about every admissible parameter value. DESIGN CHOICE (log 1), safe. -/
structure Config where
  /-- `IDX_PAGE_PENALTY` (D5) -/
  idxPagePenalty : Bool
  /-- `BRANCH_PAGE_PENALTY` (D6) -/
  branchPagePenalty : Bool
  /-- `UNMAPPED_POLICY` (D13) -/
  unmappedPolicy : UnmappedPolicy
  /-- `SCANLINES` (D18) -/
  scanlines : Nat
  /-- `DOTS` (D18) -/
  dots : Nat
  /-- `VBL_SET_DOT` (D18) -/
  vblSetDot : Nat
  /-- the `n` of `len(PRG) = 16384 * n` (R33, R410) -/
  prgBanks : Nat
  /-- `PRG`, the read-only program storage (R33), keyed by offset; an unlisted offset holds 0x00 -/
  prg : Machine.Memory
  deriving DecidableEq, Repr

/-- `FRAME = SCANLINES * DOTS` (R351). -/
def Config.frame (cfg : Config) : Nat := cfg.scanlines * cfg.dots

/-- `len(PRG)` (R33). -/
def Config.prgLen (cfg : Config) : Nat := 16384 * cfg.prgBanks

/-- `RAM_SIZE` (R5). -/
def ramSize : Nat := 2048

/-- `CPU_PERIOD`, in master ticks (R5). -/
def cpuPeriod : Nat := 12

/-- `PPU_PERIOD`, in master ticks (R5). -/
def ppuPeriod : Nat := 4

/-- The defaults of rule R5 over a 16 KiB program storage of 0x00 bytes. The spec's defaults are its own decisions (D5, D6, D13,
D18), and the program storage is DESIGN CHOICE (log 7), unsafe: `State.reset` is the one place that uses them. -/
def Config.default : Config where
  idxPagePenalty := true
  branchPagePenalty := true
  unmappedPolicy := .zero
  scanlines := 262
  dots := 341
  vblSetDot := 82182
  prgBanks := 1
  prg := []

end Sys2Proof
end

