-- ==== Sys2Proof/Machine/State.lean ====
section
/-! DEFINITION. The state of the block (10_state.md rules R20-R38), the reasons a step may stop, and the state after
construction. -/

namespace Sys2Proof.Machine

/-- The reasons the machine could stop with a fault: none. Every abnormal event of the spec is a halt, which is state (`H`) and
leaves the block steppable (60_exceptions.md R330-R336), so no step raises a fault. DEDUCED (log 12), safe. -/
inductive Fault where
  deriving DecidableEq, Repr

/-- The reasons an instruction has no meaning in this model. -/
inductive Refusal where
  /-- An arm of `exec` that has no meaning yet; no arm raises it. Safe. -/
  | notModelled (mnemonic : String)
  deriving DecidableEq, Repr

/-- The seven status flags of `P` as Booleans (R23, R24, D28; log 9). -/
structure Flags where
  c : Bool
  z : Bool
  i : Bool
  d : Bool
  b : Bool
  v : Bool
  n : Bool
  deriving DecidableEq, Repr

/-- The register file without `PC`: what an operation hook may read and write (R20, R22, R23, R155). -/
structure Regs where
  a : Byte
  x : Byte
  y : Byte
  sp : Byte
  p : Flags
  deriving DecidableEq, Repr

/-- The direction of a bus transaction (R30). -/
inductive Dir where
  | read | write
  deriving DecidableEq, Repr

/-- The bus transaction register `tx` (R30). -/
structure Tx where
  addr : Addr
  data : Byte
  dir : Dir
  deriving DecidableEq, Repr

/-- The per-instruction scratch record `S` (R28). -/
structure Scratch where
  op : Byte
  lo : Byte
  ea : Addr
  target : Addr
  deriving DecidableEq, Repr

/-- The closed vocabulary of micro-operations (R136). -/
inductive MicroOp where
  | reset0 | reset1 | reset2
  | dispatch
  | zpLo
  | absLo
  | absHi (idx : Index)
  | penalty
  | access
  | commit
  | store
  | branchCheck
  | branchTake
  | jmpHi
  deriving DecidableEq, Repr

/-- Why the CPU halted (R331). -/
inductive HaltReason where
  /-- Dispatch met the opcode `op`, fetched from `addr`, with no routine (R330). -/
  | undefinedOpcode (op : Byte) (addr : Addr)
  /-- A bus step resolved a transaction at an unmapped address under `UNMAPPED_POLICY = Fault` (R333). -/
  | unmappedAccess (addr : Addr) (dir : Dir)
  deriving DecidableEq, Repr

/-- The halt record (R331): the reason, the register snapshot, the transaction register and the master tick. -/
structure HaltRecord where
  reason : HaltReason
  regs : Regs
  pc : Addr
  tx : Tx
  t : Nat
  deriving DecidableEq, Repr

/-- The PPU timing unit (R34): position, latches and the write log `L`, oldest entry first. -/
structure Ppu where
  pos : Nat
  vbl : Bool
  s0hit : Bool
  sovf : Bool
  log : List (BitVec 3 × Byte)
  deriving DecidableEq, Repr

/-- What a registration of the clock driver calls (R36, R342). -/
inductive Callback where
  /-- `CpuBus() = clk(); BusStep()` -/
  | cpuBus
  /-- `PpuStep()` -/
  | ppu
  /-- a callback of the host's own; it changes nothing in the block (R345). DEDUCED (log 11), unsafe. -/
  | host (tag : Nat)
  deriving DecidableEq, Repr

/-- The whole state of the block. -/
structure State where
  /-- `A`, `X`, `Y`, `SP`, `P` (R20, R22, R23) -/
  regs : Regs
  /-- `PC` (R21) -/
  pc : Addr
  /-- `Q`, front first (R27) -/
  q : List MicroOp
  /-- `S` (R28) -/
  scratch : Scratch
  /-- `H` (R29) -/
  halt : Option HaltRecord
  /-- `tx` (R30) -/
  tx : Tx
  /-- general RAM, keyed by offset 0..2047 (R32) -/
  ram : Memory
  /-- the PPU timing unit, the one copy that bus and clock driver share (R34, R67) -/
  ppu : Ppu
  /-- the master tick counter (R36) -/
  t : Nat
  /-- `DIV`, in registration order (R36) -/
  div : List (Nat × Callback)
  /-- the parameters and the program storage, constants of the block (R5, R33); no rule changes them -/
  cfg : Config
  deriving DecidableEq, Repr

/-- What a step or a meaning answers. -/
abbrev Step := Host.Outcome State Fault Refusal

/-- The values the spec leaves OPEN or unspecified at power-up (R37, R38): `RESET_REGS`, `PC`, the scratch record and
`RAM_INIT`. -/
structure Draws where
  regs : Regs
  pc : Addr
  scratch : Scratch
  ram : Memory
  deriving DecidableEq, Repr

/-- The canonical registrations (R342): CPU and bus every 12 master ticks, then the PPU every 4. -/
def canonicalDiv : List (Nat × Callback) := [(cpuPeriod, .cpuBus), (ppuPeriod, .ppu)]

/-- Construction, the only reset (R37, R400, R411), for every parameter value and every draw of the open values. -/
def State.construct (cfg : Config) (d : Draws) : State where
  regs := d.regs
  pc := d.pc
  q := [.reset0, .reset1, .reset2]
  scratch := d.scratch
  halt := none
  tx := ⟨0x0000, 0x00, .read⟩
  ram := d.ram
  ppu := ⟨0, false, false, false, []⟩
  t := 0
  div := canonicalDiv
  cfg := cfg

/-- The draws of `State.reset`: every register, flag, scratch field and RAM byte zero.
DESIGN CHOICE (logs 4, 5, 6), unsafe: the block guarantees none of them. -/
def Draws.zero : Draws where
  regs := ⟨0, 0, 0, 0, ⟨false, false, false, false, false, false, false⟩⟩
  pc := 0
  scratch := ⟨0, 0, 0, 0⟩
  ram := []

/-- The machine right after construction, at the default parameters and zero draws. -/
def State.reset : State := State.construct Config.default Draws.zero

end Sys2Proof.Machine
end

