-- ==== Sys2Proof/Machine/Flags.lean ====
section
/-! DEFINITION. The flag primitives (10_state.md rule R25) and the flag computations of 42_alu.md. -/

namespace Sys2Proof.Machine

/-- The names of the flags (R23). -/
inductive Flag where
  | c | z | i | d | b | v | n
  deriving DecidableEq, Repr

/-- The bit position of a flag in `P` (R24); bit 5 does not exist, and no instruction moves `P` as a byte. -/
def flagBit (f : Flag) : Nat :=
  match f with
  | .c => 0
  | .z => 1
  | .i => 2
  | .d => 3
  | .b => 4
  | .v => 6
  | .n => 7

/-- `SetFlag(f, b)`: the single primitive that writes `P`; every other flag is kept (R25). -/
def setFlag (f : Flag) (b : Bool) (p : Flags) : Flags :=
  match f with
  | .c => { p with c := b }
  | .z => { p with z := b }
  | .i => { p with i := b }
  | .d => { p with d := b }
  | .b => { p with b := b }
  | .v => { p with v := b }
  | .n => { p with n := b }

/-- `SetNZ(v)` (R25). -/
def setNZ (v : Byte) (p : Flags) : Flags := setFlag .n v.msb (setFlag .z (v == 0) p)

/-- The value of `Cin` (R222). -/
def carryIn (p : Flags) : Nat := p.c.toNat

/-- `s <- A + M + Cin`, in the integers (R222). -/
def sumWide (a m : Byte) (cin : Nat) : Nat := a.toNat + m.toNat + cin

/-- `r <- s mod 256` (R222). -/
def sumByte (a m : Byte) (cin : Nat) : Byte := BitVec.ofNat 8 (sumWide a m cin)

/-- `s > 255` (R222). -/
def sumCarry (a m : Byte) (cin : Nat) : Bool := decide (255 < sumWide a m cin)

/-- `((A ^ r) & (M ^ r) & 0x80) != 0` (R222). -/
def sumOverflow (a m r : Byte) : Bool := ((a ^^^ r) &&& (m ^^^ r) &&& 0x80) != 0

/-- The flag writes of ADC before the result is written: C, then V (R222). -/
def setSumFlags (a m : Byte) (cin : Nat) (p : Flags) : Flags :=
  setFlag .v (sumOverflow a m (sumByte a m cin)) (setFlag .c (sumCarry a m cin) p)

/-- The flag writes of a compare of a register value with `M`: C, Z, N (R227). -/
def setCompareFlags (r m : Byte) (p : Flags) : Flags :=
  setFlag .n (r - m).msb (setFlag .z (r == m) (setFlag .c (decide (m.toNat ≤ r.toNat)) p))

/-- The flag writes of BIT: Z, V, N (R230). -/
def setBitFlags (a m : Byte) (p : Flags) : Flags :=
  setFlag .n (m.getLsbD 7) (setFlag .v (m.getLsbD 6) (setFlag .z ((a &&& m) == 0) p))

end Sys2Proof.Machine
end

