-- ==== Sys2Proof/Machine/Hooks.lean ====
section
/-! DEFINITION. The operation hooks of 40_scheduler.md rule R155, one definition per operation. A hook sees the register file
without `PC` and nothing else, so no hook can touch `tx`, `Q`, `S` or memory. -/

namespace Sys2Proof.Machine

/-! ### `Exec(op, M)`: loads -/

/-- R180. -/
def hookLda (m : Byte) (r : Regs) : Regs := { r with a := m, p := setNZ m r.p }
/-- R181. -/
def hookLdx (m : Byte) (r : Regs) : Regs := { r with x := m, p := setNZ m r.p }
/-- R182. -/
def hookLdy (m : Byte) (r : Regs) : Regs := { r with y := m, p := setNZ m r.p }

/-! ### `Exec(op, M)`: arithmetic, logic, compare, bit test -/

/-- R222; binary whatever `D` is (R221). -/
def hookAdc (m : Byte) (r : Regs) : Regs :=
  let res := sumByte r.a m (carryIn r.p)
  { r with a := res, p := setNZ res (setSumFlags r.a m (carryIn r.p) r.p) }

/-- R223: `Mc <- M ^ 0xFF`, then the sum of R222 with `Mc`. -/
def hookSbc (m : Byte) (r : Regs) : Regs :=
  let mc := m ^^^ 0xFF
  let res := sumByte r.a mc (carryIn r.p)
  { r with a := res, p := setNZ res (setSumFlags r.a mc (carryIn r.p) r.p) }

/-- R224. -/
def hookAnd (m : Byte) (r : Regs) : Regs := { r with a := r.a &&& m, p := setNZ (r.a &&& m) r.p }
/-- R225. -/
def hookOra (m : Byte) (r : Regs) : Regs := { r with a := r.a ||| m, p := setNZ (r.a ||| m) r.p }
/-- R226. -/
def hookEor (m : Byte) (r : Regs) : Regs := { r with a := r.a ^^^ m, p := setNZ (r.a ^^^ m) r.p }
/-- R227. -/
def hookCmp (m : Byte) (r : Regs) : Regs := { r with p := setCompareFlags r.a m r.p }
/-- R228. -/
def hookCpx (m : Byte) (r : Regs) : Regs := { r with p := setCompareFlags r.x m r.p }
/-- R229. -/
def hookCpy (m : Byte) (r : Regs) : Regs := { r with p := setCompareFlags r.y m r.p }
/-- R230. -/
def hookBit (m : Byte) (r : Regs) : Regs := { r with p := setBitFlags r.a m r.p }

/-- `Exec(op, M)` (R155). -/
def execHook : ReadOp → Byte → Regs → Regs
  | .lda => hookLda
  | .ldx => hookLdx
  | .ldy => hookLdy
  | .adc => hookAdc
  | .sbc => hookSbc
  | .and => hookAnd
  | .ora => hookOra
  | .eor => hookEor
  | .cmp => hookCmp
  | .cpx => hookCpx
  | .cpy => hookCpy
  | .bit => hookBit

/-! ### `StoreSrc(op)` -/

/-- The register a store writes to memory (R183-R185). -/
def storeSrc : StoreOp → Regs → Byte
  | .sta => Regs.a
  | .stx => Regs.x
  | .sty => Regs.y

/-! ### `Implied(op)`: transfers -/

/-- R186. -/
def hookTax (r : Regs) : Regs := { r with x := r.a, p := setNZ r.a r.p }
/-- R187. -/
def hookTay (r : Regs) : Regs := { r with y := r.a, p := setNZ r.a r.p }
/-- R188. -/
def hookTxa (r : Regs) : Regs := { r with a := r.x, p := setNZ r.x r.p }
/-- R189. -/
def hookTya (r : Regs) : Regs := { r with a := r.y, p := setNZ r.y r.p }
/-- R190. -/
def hookTsx (r : Regs) : Regs := { r with x := r.sp, p := setNZ r.sp r.p }
/-- R191: the one transfer that writes no flag. -/
def hookTxs (r : Regs) : Regs := { r with sp := r.x }

/-! ### `Implied(op)`: index increments and decrements -/

/-- R231. -/
def hookInx (r : Regs) : Regs := { r with x := r.x + 1, p := setNZ (r.x + 1) r.p }
/-- R232. -/
def hookIny (r : Regs) : Regs := { r with y := r.y + 1, p := setNZ (r.y + 1) r.p }
/-- R233. -/
def hookDex (r : Regs) : Regs := { r with x := r.x - 1, p := setNZ (r.x - 1) r.p }
/-- R234. -/
def hookDey (r : Regs) : Regs := { r with y := r.y - 1, p := setNZ (r.y - 1) r.p }

/-! ### `Implied(op)`: shifts and rotates of the accumulator -/

/-- The carry as a byte, 0 or 1. -/
def carryByte (p : Flags) : Byte := if p.c then 1 else 0

/-- R235. -/
def hookAsl (r : Regs) : Regs :=
  let res := r.a <<< 1
  { r with a := res, p := setNZ res (setFlag .c (r.a.getLsbD 7) r.p) }

/-- R236. -/
def hookLsr (r : Regs) : Regs :=
  let res := r.a >>> 1
  { r with a := res, p := setNZ res (setFlag .c (r.a.getLsbD 0) r.p) }

/-- R237. -/
def hookRol (r : Regs) : Regs :=
  let res := (r.a <<< 1) ||| carryByte r.p
  { r with a := res, p := setNZ res (setFlag .c (r.a.getLsbD 7) r.p) }

/-- R238. -/
def hookRor (r : Regs) : Regs :=
  let res := (carryByte r.p <<< 7) ||| (r.a >>> 1)
  { r with a := res, p := setNZ res (setFlag .c (r.a.getLsbD 0) r.p) }

/-! ### `Implied(op)`: flag instructions and NOP -/

/-- R290. -/
def hookClc (r : Regs) : Regs := { r with p := setFlag .c false r.p }
/-- R291. -/
def hookSec (r : Regs) : Regs := { r with p := setFlag .c true r.p }
/-- R292. -/
def hookCli (r : Regs) : Regs := { r with p := setFlag .i false r.p }
/-- R293. -/
def hookSei (r : Regs) : Regs := { r with p := setFlag .i true r.p }
/-- R294. -/
def hookClv (r : Regs) : Regs := { r with p := setFlag .v false r.p }
/-- R295. -/
def hookCld (r : Regs) : Regs := { r with p := setFlag .d false r.p }
/-- R296. -/
def hookSed (r : Regs) : Regs := { r with p := setFlag .d true r.p }
/-- R297. -/
def hookNop (r : Regs) : Regs := r

/-- `Implied(op)` (R155). -/
def impliedHook : ImpliedOp → Regs → Regs
  | .tax => hookTax
  | .tay => hookTay
  | .txa => hookTxa
  | .tya => hookTya
  | .tsx => hookTsx
  | .txs => hookTxs
  | .inx => hookInx
  | .iny => hookIny
  | .dex => hookDex
  | .dey => hookDey
  | .asl => hookAsl
  | .lsr => hookLsr
  | .rol => hookRol
  | .ror => hookRor
  | .clc => hookClc
  | .sec => hookSec
  | .cli => hookCli
  | .sei => hookSei
  | .clv => hookClv
  | .cld => hookCld
  | .sed => hookSed
  | .nop => hookNop

/-! ### `Cond(op)` -/

/-- The condition of a branch, a Boolean of the flags (R281-R288). -/
def branchCond : BranchOp → Flags → Bool
  | .bpl, p => !p.n
  | .bmi, p => p.n
  | .bvc, p => !p.v
  | .bvs, p => p.v
  | .bcc, p => !p.c
  | .bcs, p => p.c
  | .bne, p => !p.z
  | .beq, p => p.z

end Sys2Proof.Machine
end

