-- ==== Sys2Proof/Machine/Ops.lean ====
section
/-! DEFINITION. The named operations over the state: byte stores, the address decoder, the devices and the bus
(20_memory.md), the PPU timing unit (60_exceptions.md §4, §5), and the one operation that halts the CPU (60_exceptions.md §1). -/

namespace Sys2Proof.Machine

/-! ### Field updates -/

def setRegs (r : Regs) (s : State) : State := { s with regs := r }
def setPc (a : Addr) (s : State) : State := { s with pc := a }
def setQ (q : List MicroOp) (s : State) : State := { s with q := q }
def setScratch (c : Scratch) (s : State) : State := { s with scratch := c }
def setHalt (h : Option HaltRecord) (s : State) : State := { s with halt := h }
def setTx (x : Tx) (s : State) : State := { s with tx := x }
def setRam (m : Memory) (s : State) : State := { s with ram := m }
def setPpu (p : Ppu) (s : State) : State := { s with ppu := p }
def setT (n : Nat) (s : State) : State := { s with t := n }
def setDiv (d : List (Nat × Callback)) (s : State) : State := { s with div := d }
def setCfg (c : Config) (s : State) : State := { s with cfg := c }

/-! ### Byte stores in canonical form -/

/-- What an offset that is not listed reads as: 0x00. For RAM this is one choice of `RAM_INIT` (R37).
DESIGN CHOICE (log 5), unsafe where a claim would rest on an unwritten byte of the reset state. -/
def Memory.fill : Byte := 0x00

/-- The byte at an offset. -/
def Memory.read : Memory → Nat → Byte
  | [], _ => Memory.fill
  | (k, b) :: m, o => if k = o then b else Memory.read m o

/-- Store a byte at an offset. The list stays sorted, and the value an unlisted offset reads as is not listed. -/
def Memory.write : Memory → Nat → Byte → Memory
  | [], o, v => if v = Memory.fill then [] else [(o, v)]
  | (k, b) :: m, o, v =>
    if o < k then (if v = Memory.fill then (k, b) :: m else (o, v) :: (k, b) :: m)
    else if o = k then (if v = Memory.fill then m else (o, v) :: m)
    else (k, b) :: Memory.write m o v

/-- Every listed offset is at least `lo`, the offsets rise strictly, and no listed byte is the unlisted value. -/
def Memory.wfFrom : Nat → Memory → Bool
  | _, [] => true
  | lo, (k, b) :: m => decide (lo ≤ k) && (b != Memory.fill) && Memory.wfFrom (k + 1) m

/-- The canonical form: equal contents are equal lists. -/
def Memory.wf (m : Memory) : Bool := Memory.wfFrom 0 m

/-- Every listed offset is below `n`. -/
def Memory.below (n : Nat) (m : Memory) : Bool := m.all fun c => decide (c.1 < n)

/-! ### The address decoder -/

/-- What an address selects: a device and an offset in its window, or nothing (R62). -/
inductive BusTarget where
  | ram (o : Nat)
  | ppu (o : BitVec 3)
  | prg (o : Nat)
  | unmapped
  deriving DecidableEq, Repr

/-- The address decoder, bit-exact (R62). -/
def decodeAddr (a : Addr) : BusTarget :=
  if a.toNat < 0x2000 then .ram (a &&& 0x07FF).toNat
  else if a.toNat < 0x4000 then .ppu (a.extractLsb' 0 3)
  else if a.toNat < 0x8000 then .unmapped
  else .prg (a - 0x8000).toNat

/-- Whether an address selects a device (R62). -/
def isMapped (a : Addr) : Bool := decodeAddr a != .unmapped

/-- Whether an address selects the PPU status register, offset 2 of the bank (R78). -/
def isStatus (a : Addr) : Bool := decodeAddr a == .ppu 2

/-! ### Devices -/

/-- The byte of program storage at an offset of its window: `PRG[o mod len(PRG)]` (R64). -/
def prgByte (cfg : Config) (o : Nat) : Byte := cfg.prg.read (o % cfg.prgLen)

/-- The status byte: bit 7 `vbl`, bit 6 `s0hit`, bit 5 `sovf`, bits 4..0 zero (R355). -/
def statusByte (p : Ppu) : Byte :=
  (if p.vbl then 0x80 else 0x00) ||| (if p.s0hit then 0x40 else 0x00) ||| (if p.sovf then 0x20 else 0x00)

/-- The byte a read of a PPU register returns (R355, R356). -/
def ppuByte (p : Ppu) (o : BitVec 3) : Byte := if o = 2 then statusByte p else 0x00

/-- The side effect of a read of a PPU register: a status read clears `vbl` (R355), other reads have none (R356). -/
def ppuReadEffect (o : BitVec 3) (p : Ppu) : Ppu := if o = 2 then { p with vbl := false } else p

/-- A write to a PPU register appends to the log and changes nothing else (R357). -/
def ppuWrite (o : BitVec 3) (v : Byte) (p : Ppu) : Ppu := { p with log := p.log ++ [(o, v)] }

/-- One PPU tick: the position moves first, both latch tests are made on its new value, the set before the clear (R350). -/
def ppuTick (cfg : Config) (p : Ppu) : Ppu :=
  let pos := (p.pos + 1) % cfg.frame
  let vbl := if pos = cfg.vblSetDot then true else p.vbl
  { p with pos := pos, vbl := if pos = 0 then false else vbl }

/-- `PpuStep()` on the state (R342, R350). -/
def ppuStep (s : State) : State := setPpu (ppuTick s.cfg s.ppu) s

/-! ### Halting -/

/-- The halt record of a reason in a state (R331). -/
def haltRecord (r : HaltReason) (s : State) : HaltRecord := ⟨r, s.regs, s.pc, s.tx, s.t⟩

/-- Take a halt: the one abnormal event of the block. The record is written once; a halt raised while one is held is dropped, and
nothing else changes (R330, R333, R334). There is no return from it (R336). -/
def raiseHalt (r : HaltReason) (s : State) : State :=
  match s.halt with
  | some _ => s
  | none => setHalt (some (haltRecord r s)) s

/-! ### Bus functions -/

/-- The byte a bus read of an address returns, without the device's side effect (R62-R66, R70). -/
def peek (s : State) (a : Addr) : Byte :=
  match decodeAddr a with
  | .ram o => s.ram.read o
  | .ppu o => ppuByte s.ppu o
  | .prg o => prgByte s.cfg o
  | .unmapped => 0x00

/-- The device's side effect of a bus read (R70, R78). -/
def readEffect (a : Addr) (s : State) : State :=
  match decodeAddr a with
  | .ppu o => setPpu (ppuReadEffect o s.ppu) s
  | _ => s

/-- `MemRead(a, 1)`: the byte, and the state after the read (R70). -/
def memRead (a : Addr) (s : State) : Byte × State := (peek s a, readEffect a s)

/-- `MemWrite(a, 1, v)` (R71): program storage and unmapped addresses drop the write (R64, R66). -/
def memWrite (a : Addr) (v : Byte) (s : State) : State :=
  match decodeAddr a with
  | .ram o => setRam (s.ram.write o v) s
  | .ppu o => setPpu (ppuWrite o v s.ppu) s
  | .prg _ => s
  | .unmapped => s

/-- `tx <- Read(a)`: the data byte is kept until the bus step fills it (R72). -/
def txRead (a : Addr) (s : State) : State := setTx { s.tx with addr := a, dir := .read } s

/-- `tx <- Write(a, v)` (R72). -/
def txWrite (a : Addr) (v : Byte) (s : State) : State := setTx ⟨a, v, .write⟩ s

/-- Resolve the live transaction: the read or the write itself (R73). -/
def resolveTx (s : State) : State :=
  match s.tx.dir with
  | .read =>
    let (b, s') := memRead s.tx.addr s
    setTx { s.tx with data := b } s'
  | .write => memWrite s.tx.addr s.tx.data s

/-- `BusStep()` (R73). At an unmapped address under `UNMAPPED_POLICY = Fault` the transaction is resolved as under `Zero` and then
a halt is raised, so that its record holds the data byte 0x00 of a faulting read (R66, R333). DEDUCED (log 13), unsafe for that byte. -/
def busStep (s : State) : State :=
  let s' := resolveTx s
  if isMapped s.tx.addr = false ∧ s.cfg.unmappedPolicy = .fault then
    raiseHalt (.unmappedAccess s.tx.addr s.tx.dir) s'
  else s'

/-! ### The queue -/

/-- `enqueue(m1, ..., mk)` (R131). -/
def enqueue (ms : List MicroOp) (s : State) : State := setQ (s.q ++ ms) s

/-- The effect of `pop_front(Q)` on the queue (R131). -/
def popQ (s : State) : State := setQ s.q.tail s

/-! ### One CPU tick of time -/

/-- The rest of the 12 master ticks of a CPU tick, after its bus step, under the canonical clock: the PPU steps at `12k`, `12k + 4` and
`12k + 8` (R344). If the CPU has halted, only the PPU step of the same master tick still runs, and the clock stops after that
master tick (R332). -/
def finishTick (s : State) : State :=
  match s.halt with
  | some _ => setT (s.t + 1) (ppuStep s)
  | none => setT (s.t + cpuPeriod) (ppuStep (ppuStep (ppuStep s)))

/-- One CPU tick in which the CPU does `act`: the act, the bus step, and the time until the next CPU tick (R130, R332, R342, R344).
A halted CPU gets no tick: the driving loop has stopped. -/
def cycle (act : State → State) (s : State) : State :=
  match s.halt with
  | some _ => s
  | none => finishTick (busStep (act s))

/-! ### Reading the instruction stream ahead -/

/-- The instruction at `PC`, from the bytes the bus would return. No admitted instruction changes the bytes that follow its opcode
before it has fetched them (R82), so they may be looked at together. DEDUCED (log 3), safe. -/
def fetchInstr (s : State) : Instr := decodeBytes (peek s s.pc) (peek s (s.pc + 1)) (peek s (s.pc + 2))

/-- An instruction boundary: the CPU is in the Decode state (R154) and its next tick is due, under the canonical clock. -/
def atBoundary (s : State) : Bool :=
  s.halt.isNone && s.q.isEmpty && (s.t % cpuPeriod == 0) && (s.div == canonicalDiv)

/-! ### Placing bytes from outside -/

/-- The state put at an instruction boundary with `PC` at an address: what a host that places a program there waits for. -/
def putAtBoundary (a : Addr) (s : State) : State :=
  setPc a (setQ [] (setHalt none (setT (s.t / cpuPeriod * cpuPeriod) (setDiv canonicalDiv s))))

/-- The host loads a byte where a bus read of the address finds it: RAM or program storage. -/
def loadByte (a : Addr) (v : Byte) (s : State) : State :=
  match decodeAddr a with
  | .ram o => setRam (s.ram.write o v) s
  | .prg o => setCfg { s.cfg with prg := s.cfg.prg.write (o % s.cfg.prgLen) v } s
  | .ppu _ => s
  | .unmapped => s

/-- Whether the three bytes from an address on are RAM or program storage. -/
def isLoadable (a : Addr) : Bool :=
  [a, a + 1, a + 2].all fun b =>
    match decodeAddr b with
    | .ram _ => true
    | .prg _ => true
    | .ppu _ => false
    | .unmapped => false

end Sys2Proof.Machine
end

