-- ==== Sys2Proof/Machine/Operands.lean ====
section
/-! DEFINITION. The micro-operations (40_scheduler.md rules R133-R149) and, over them, the schedule of every addressing mode
(rules R138, R142, R151). A micro-operation takes the operation and the byte it consumes as arguments: the scheduler of
Machine/Clock.lean gives it `T[S.op]` and `tx.data`, a meaning gives it the instruction's own operation and operand bytes. -/

namespace Sys2Proof.Machine

/-! ### Micro-operations -/

/-- `FetchOperand` (R134). -/
def fetchOperand (s : State) : State := setPc (s.pc + 1) (txRead s.pc s)

/-- `DecodeStep()` (R133). -/
def decodeStep (s : State) : State := enqueue [.dispatch] (fetchOperand s)

/-- `Setup(mode, class)` (R138). -/
def setup (e : Entry) (s : State) : State :=
  match e.cls with
  | .implied o => setRegs (impliedHook o s.regs) s
  | .branch _ => enqueue [.branchCheck] (fetchOperand s)
  | .jump => enqueue [.absLo, .jmpHi] (fetchOperand s)
  | .undef => s
  | .read _ | .store _ =>
    match e.mode with
    | .immediate => enqueue [.commit] (fetchOperand s)
    | .zeroPage => enqueue [.zpLo] (fetchOperand s)
    | .absolute idx => enqueue [.absLo, .absHi idx] (fetchOperand s)
    | .implied | .accumulator | .relative | .noMode => s

/-- `Dispatch()` on the opcode byte `op` with the table entry `e` (R137); an Undefined entry takes the halt of R330. -/
def dispatch (op : Byte) (e : Entry) (s : State) : State :=
  let s' := setScratch { s.scratch with op := op } s
  match e.cls with
  | .undef => raiseHalt (.undefinedOpcode op (s.pc - 1)) s'
  | .read _ | .store _ | .implied _ | .branch _ | .jump => setup e s'

/-- `Tail(idx, crossed)` (R142). -/
def tailOps (cfg : Config) (c : OpClass) (idx : Index) (crossed : Bool) : List MicroOp :=
  match c with
  | .read _ => (if crossed && cfg.idxPagePenalty then [.penalty] else []) ++ [.access, .commit]
  | .store _ => (if (idx != .noIndex) && cfg.idxPagePenalty then [.penalty] else []) ++ [.store]
  | .implied _ | .branch _ | .jump | .undef => []

/-- `ZpLo()` on the address byte (R139). -/
def zpLo (c : OpClass) (b : Byte) (s : State) : State :=
  enqueue (tailOps s.cfg c .noIndex false) (setScratch { s.scratch with lo := b, ea := zext16 b } s)

/-- `AbsLo()` on the low address byte (R140). -/
def absLo (b : Byte) (s : State) : State := fetchOperand (setScratch { s.scratch with lo := b } s)

/-- The value an index adds to the base address (R141). -/
def indexValue (idx : Index) (r : Regs) : Addr :=
  match idx with
  | .noIndex => 0
  | .x => zext16 r.x
  | .y => zext16 r.y

/-- `(base + i) mod 65536` (R141, R84). -/
def indexedAddr (base : Addr) (idx : Index) (r : Regs) : Addr := base + indexValue idx r

/-- Whether two addresses lie in different pages (R150). -/
def crossesPage (a b : Addr) : Bool := hiByte a != hiByte b

/-- `crossed` of an absolute access (R141): only an indexed one can cross. -/
def indexCrosses (base : Addr) (idx : Index) (r : Regs) : Bool :=
  (idx != .noIndex) && crossesPage (indexedAddr base idx r) base

/-- `AbsHi(idx)` on the high address byte (R141); the index register is read in this tick (D35). -/
def absHi (c : OpClass) (idx : Index) (b : Byte) (s : State) : State :=
  let base := concat b s.scratch.lo
  enqueue (tailOps s.cfg c idx (indexCrosses base idx s.regs))
    (setScratch { s.scratch with ea := indexedAddr base idx s.regs } s)

/-- `Access()` (R144). -/
def access (s : State) : State := txRead s.scratch.ea s

/-- `Commit()` on the byte read (R145). A class without an `Exec` hook has no effect; no reachable queue commits one.
DESIGN CHOICE (log 17), safe. -/
def commit (c : OpClass) (b : Byte) (s : State) : State :=
  match c with
  | .read o => setRegs (execHook o b s.regs) s
  | .store _ | .implied _ | .branch _ | .jump | .undef => s

/-- `Store()` (R146). As `commit`, no effect for a class without a `StoreSrc` hook (log 17). -/
def store (c : OpClass) (s : State) : State :=
  match c with
  | .store o => txWrite s.scratch.ea (storeSrc o s.regs) s
  | .read _ | .implied _ | .branch _ | .jump | .undef => s

/-- The target of a branch from the address after its offset byte (R147). -/
def branchTarget (pcNext : Addr) (off : Byte) : Addr := pcNext + sext16 off

/-- `BranchCheck()` on the offset byte; `PC` is the address after it (R147). As `commit`, no effect for a class without a `Cond` hook
(log 17). -/
def branchCheck (c : OpClass) (off : Byte) (s : State) : State :=
  match c with
  | .branch o =>
    if branchCond o s.regs.p then
      let target := branchTarget s.pc off
      enqueue (.branchTake :: if crossesPage target s.pc && s.cfg.branchPagePenalty then [.penalty] else [])
        (setScratch { s.scratch with target := target } s)
    else s
  | .read _ | .store _ | .implied _ | .jump | .undef => s

/-- `BranchTake()` (R148). -/
def branchTake (s : State) : State := setPc s.scratch.target s

/-- `JmpHi()` on the high byte of the target (R149). -/
def jmpHi (b : Byte) (s : State) : State := setPc (concat b s.scratch.lo) s

/-- `Reset1()`: the low byte of the reset vector, read with the bus function itself (R401). -/
def reset1 (s : State) : State :=
  let (b, s') := memRead 0xFFFC s
  setScratch { s'.scratch with lo := b } s'

/-- `Reset2()`: the high byte, and the program counter (R401). -/
def reset2 (s : State) : State :=
  let (b, s') := memRead 0xFFFD s
  setPc (concat b s'.scratch.lo) s'

/-! ### Schedules -/

/-- The two ticks every instruction begins with: the decode step, then Dispatch with the opcode byte and its entry (R133, R137). -/
def opened (op : Byte) (e : Entry) (s : State) : State :=
  cycle (fun u => dispatch op e (popQ u)) (cycle decodeStep s)

/-- A micro-operation that follows the effective address (R142): Penalty, Access, Commit or Store. -/
def tailOp (c : OpClass) (m : MicroOp) (s : State) : State :=
  match m with
  | .access => access s
  | .commit => commit c s.tx.data s
  | .store => store c s
  | .penalty | .reset0 | .reset1 | .reset2 | .dispatch | .zpLo | .absLo | .absHi _ | .branchCheck | .branchTake | .jmpHi => s

/-- Run the tail of an instruction, one tick for each micro-operation. -/
def runTail (c : OpClass) (ms : List MicroOp) (s : State) : State :=
  ms.foldl (fun u m => cycle (fun v => tailOp c m (popQ v)) u) s

/-- The schedule of an implied or accumulator instruction (R138). -/
def runImplied (op : Byte) (o : ImpliedOp) (mode : Mode) (s : State) : State := opened op ⟨.implied o, mode⟩ s

/-- The schedule of an immediate instruction with operand `m` (R138, R145). -/
def runImmediate (op : Byte) (o : ReadOp) (m : Byte) (s : State) : State :=
  cycle (fun u => commit (.read o) m (popQ u)) (opened op ⟨.read o, .immediate⟩ s)

/-- The schedule of a zero-page instruction with address byte `z` (R138, R139, R142). -/
def runZeroPage (op : Byte) (c : OpClass) (z : Byte) (s : State) : State :=
  runTail c (tailOps s.cfg c .noIndex false)
    (cycle (fun u => zpLo c z (popQ u)) (opened op ⟨c, .zeroPage⟩ s))

/-- The schedule of an absolute or absolute-indexed instruction with address operand `a` (R138, R140-R142). -/
def runAbsolute (op : Byte) (c : OpClass) (idx : Index) (a : Addr) (s : State) : State :=
  runTail c (tailOps s.cfg c idx (indexCrosses a idx s.regs))
    (cycle (fun u => absHi c idx (hiByte a) (popQ u))
      (cycle (fun u => absLo (loByte a) (popQ u)) (opened op ⟨c, .absolute idx⟩ s)))

/-- The schedule of a branch with offset byte `off` (R138, R147, R148, R280). -/
def runBranch (op : Byte) (o : BranchOp) (off : Byte) (s : State) : State :=
  let checked := cycle (fun u => branchCheck (.branch o) off (popQ u)) (opened op ⟨.branch o, .relative⟩ s)
  if branchCond o s.regs.p then
    let taken := cycle (fun u => branchTake (popQ u)) checked
    if crossesPage (branchTarget (s.pc + 2) off) (s.pc + 2) && s.cfg.branchPagePenalty then cycle popQ taken else taken
  else checked

/-- The schedule of `JMP` with target `a` (R138, R140, R149, R289). -/
def runJump (op : Byte) (a : Addr) (s : State) : State :=
  cycle (fun u => jmpHi (hiByte a) (popQ u))
    (cycle (fun u => absLo (loByte a) (popQ u)) (opened op ⟨.jump, .absolute .noIndex⟩ s))

/-- The schedule of an undefined opcode: Dispatch halts (R137, R151, R330). -/
def runUndefined (op : Byte) (s : State) : State := opened op ⟨.undef, .noMode⟩ s

end Sys2Proof.Machine
end

