-- ==== Sys2Proof/Machine/Clock.lean ====
section
/-! DEFINITION. The scheduler's per-tick contract (40_scheduler.md rule R130), the clock driver (60_exceptions.md §3) and the host's
operations (R345, R410, R411). -/

namespace Sys2Proof.Machine

/-- The class of the instruction in flight, `T[S.op]` (R137, R155). -/
def inFlight (s : State) : OpClass := (tableEntry s.scratch.op).cls

/-- `exec(m)`: one popped micro-operation, consuming the byte the last bus step left in `tx.data` (R136-R149, R401). -/
def runMicroOp (m : MicroOp) (s : State) : State :=
  match m with
  | .reset0 => s
  | .reset1 => reset1 s
  | .reset2 => reset2 s
  | .dispatch => dispatch s.tx.data (tableEntry s.tx.data) s
  | .zpLo => zpLo (inFlight s) s.tx.data s
  | .absLo => absLo s.tx.data s
  | .absHi idx => absHi (inFlight s) idx s.tx.data s
  | .penalty => s
  | .access => access s
  | .commit => commit (inFlight s) s.tx.data s
  | .store => store (inFlight s) s
  | .branchCheck => branchCheck (inFlight s) s.tx.data s
  | .branchTake => branchTake s
  | .jmpHi => jmpHi s.tx.data s

/-- `clk()` (R130, R132). -/
def clk (s : State) : State :=
  match s.halt with
  | some _ => s
  | none =>
    match s.q with
    | [] => decodeStep s
    | m :: _ => runMicroOp m (popQ s)

/-- `CpuBus()` (R342). -/
def cpuBus (s : State) : State := busStep (clk s)

/-- What invoking a callback does to the block (R342). A callback of the host's own changes nothing in it (R345): DEDUCED (log 11),
unsafe. -/
def runCallback (c : Callback) (s : State) : State :=
  match c with
  | .cpuBus => cpuBus s
  | .ppu => ppuStep s
  | .host _ => s

/-- The callbacks that fire at master tick `t`, in registration order (R341). `addPeriodic` admits no period 0; `t % 0` is `t` here
(log 16). -/
def firing (t : Nat) (div : List (Nat × Callback)) : List Callback :=
  (div.filter fun d => t % d.1 == 0).map Prod.snd

/-- `MasterTick()` (R341): the one step function of the block (R10). -/
def masterTick (s : State) : State :=
  let s' := (firing s.t s.div).foldl (fun u c => runCallback c u) s
  setT (s'.t + 1) s'

/-- `add_periodic(period, callback)`: a period that is not positive is refused and the list stays as it is (R340, D15). -/
def addPeriodic (period : Int) (c : Callback) (s : State) : State :=
  if 0 < period then setDiv (s.div ++ [(period.toNat, c)]) s else s

/-- The host's `step(n)`: `n` master ticks, stopping early after one that ends halted (R345, R332). -/
def runTicks : Nat → State → State
  | 0, s => s
  | n + 1, s =>
    let s' := masterTick s
    match s'.halt with
    | some _ => s'
    | none => runTicks n s'

/-- The parameters a host may construct a block with: `0 < VBL_SET_DOT < FRAME` (R351), and program storage of `16384 * n` bytes,
`n >= 1`, in canonical form (R33, R410). A block that no host can construct steps all the same (log 16). -/
def validConfig (cfg : Config) : Bool :=
  decide (0 < cfg.vblSetDot) && decide (cfg.vblSetDot < cfg.frame) && decide (1 ≤ cfg.prgBanks) &&
    cfg.prg.wf && cfg.prg.below cfg.prgLen

/-- The draws a block may power up with: any registers, and any contents of the 2048 RAM bytes (R32, R38). -/
def validDraws (d : Draws) : Bool := d.ram.wf && d.ram.below ramSize

/-- Construction by the host (R411). An image without program storage, or a parameter out of range, is refused before any component is
constructed (R410, R351). -/
def constructBlock (cfg : Config) (d : Draws) : Option State :=
  if validConfig cfg && validDraws d then some (State.construct cfg d) else none

/-- The host's handle on a block: the block, and whether `stop()` has been called (R345). DESIGN CHOICE (log 14), safe. -/
structure HostBlock where
  block : State
  stopped : Bool
  deriving DecidableEq, Repr

/-- `stop()`: no master tick runs after it (R345). -/
def hostStop (h : HostBlock) : HostBlock := { h with stopped := true }

/-- `step(n)` through the handle (R345). -/
def hostStep (n : Nat) (h : HostBlock) : HostBlock :=
  if h.stopped then h else { h with block := runTicks n h.block }

end Sys2Proof.Machine
end

