-- ==== Sys2Proof/Machine/Alu.lean ====
section
/-! DEFINITION. The meanings of the arithmetic, logic, compare, bit test, index increments and accumulator shifts (42_alu.md rules R220-R239): each is its operation's hook (Machine/Hooks.lean)
run on the schedule of its addressing mode (Machine/Operands.lean). -/

namespace Sys2Proof.Machine

/-- ADC #m (R222). -/
def execAdcImm (m : Byte) (s : State) : Step := .next (runImmediate 0x69 .adc m s)

/-- ADC z (R222). -/
def execAdcZp (z : Byte) (s : State) : Step := .next (runZeroPage 0x65 (.read .adc) z s)

/-- ADC a (R222). -/
def execAdcAbs (a : Addr) (s : State) : Step := .next (runAbsolute 0x6D (.read .adc) .noIndex a s)

/-- ADC a,X (R222). -/
def execAdcAbsX (a : Addr) (s : State) : Step := .next (runAbsolute 0x7D (.read .adc) .x a s)

/-- ADC a,Y (R222). -/
def execAdcAbsY (a : Addr) (s : State) : Step := .next (runAbsolute 0x79 (.read .adc) .y a s)

/-- SBC #m (R223). -/
def execSbcImm (m : Byte) (s : State) : Step := .next (runImmediate 0xE9 .sbc m s)

/-- SBC z (R223). -/
def execSbcZp (z : Byte) (s : State) : Step := .next (runZeroPage 0xE5 (.read .sbc) z s)

/-- SBC a (R223). -/
def execSbcAbs (a : Addr) (s : State) : Step := .next (runAbsolute 0xED (.read .sbc) .noIndex a s)

/-- SBC a,X (R223). -/
def execSbcAbsX (a : Addr) (s : State) : Step := .next (runAbsolute 0xFD (.read .sbc) .x a s)

/-- SBC a,Y (R223). -/
def execSbcAbsY (a : Addr) (s : State) : Step := .next (runAbsolute 0xF9 (.read .sbc) .y a s)

/-- AND #m (R224). -/
def execAndImm (m : Byte) (s : State) : Step := .next (runImmediate 0x29 .and m s)

/-- AND z (R224). -/
def execAndZp (z : Byte) (s : State) : Step := .next (runZeroPage 0x25 (.read .and) z s)

/-- AND a (R224). -/
def execAndAbs (a : Addr) (s : State) : Step := .next (runAbsolute 0x2D (.read .and) .noIndex a s)

/-- AND a,X (R224). -/
def execAndAbsX (a : Addr) (s : State) : Step := .next (runAbsolute 0x3D (.read .and) .x a s)

/-- AND a,Y (R224). -/
def execAndAbsY (a : Addr) (s : State) : Step := .next (runAbsolute 0x39 (.read .and) .y a s)

/-- ORA #m (R225). -/
def execOraImm (m : Byte) (s : State) : Step := .next (runImmediate 0x09 .ora m s)

/-- ORA z (R225). -/
def execOraZp (z : Byte) (s : State) : Step := .next (runZeroPage 0x05 (.read .ora) z s)

/-- ORA a (R225). -/
def execOraAbs (a : Addr) (s : State) : Step := .next (runAbsolute 0x0D (.read .ora) .noIndex a s)

/-- ORA a,X (R225). -/
def execOraAbsX (a : Addr) (s : State) : Step := .next (runAbsolute 0x1D (.read .ora) .x a s)

/-- ORA a,Y (R225). -/
def execOraAbsY (a : Addr) (s : State) : Step := .next (runAbsolute 0x19 (.read .ora) .y a s)

/-- EOR #m (R226). -/
def execEorImm (m : Byte) (s : State) : Step := .next (runImmediate 0x49 .eor m s)

/-- EOR z (R226). -/
def execEorZp (z : Byte) (s : State) : Step := .next (runZeroPage 0x45 (.read .eor) z s)

/-- EOR a (R226). -/
def execEorAbs (a : Addr) (s : State) : Step := .next (runAbsolute 0x4D (.read .eor) .noIndex a s)

/-- EOR a,X (R226). -/
def execEorAbsX (a : Addr) (s : State) : Step := .next (runAbsolute 0x5D (.read .eor) .x a s)

/-- EOR a,Y (R226). -/
def execEorAbsY (a : Addr) (s : State) : Step := .next (runAbsolute 0x59 (.read .eor) .y a s)

/-- CMP #m (R227). -/
def execCmpImm (m : Byte) (s : State) : Step := .next (runImmediate 0xC9 .cmp m s)

/-- CMP z (R227). -/
def execCmpZp (z : Byte) (s : State) : Step := .next (runZeroPage 0xC5 (.read .cmp) z s)

/-- CMP a (R227). -/
def execCmpAbs (a : Addr) (s : State) : Step := .next (runAbsolute 0xCD (.read .cmp) .noIndex a s)

/-- CMP a,X (R227). -/
def execCmpAbsX (a : Addr) (s : State) : Step := .next (runAbsolute 0xDD (.read .cmp) .x a s)

/-- CMP a,Y (R227). -/
def execCmpAbsY (a : Addr) (s : State) : Step := .next (runAbsolute 0xD9 (.read .cmp) .y a s)

/-- CPX #m (R228). -/
def execCpxImm (m : Byte) (s : State) : Step := .next (runImmediate 0xE0 .cpx m s)

/-- CPX z (R228). -/
def execCpxZp (z : Byte) (s : State) : Step := .next (runZeroPage 0xE4 (.read .cpx) z s)

/-- CPX a (R228). -/
def execCpxAbs (a : Addr) (s : State) : Step := .next (runAbsolute 0xEC (.read .cpx) .noIndex a s)

/-- CPY #m (R229). -/
def execCpyImm (m : Byte) (s : State) : Step := .next (runImmediate 0xC0 .cpy m s)

/-- CPY z (R229). -/
def execCpyZp (z : Byte) (s : State) : Step := .next (runZeroPage 0xC4 (.read .cpy) z s)

/-- CPY a (R229). -/
def execCpyAbs (a : Addr) (s : State) : Step := .next (runAbsolute 0xCC (.read .cpy) .noIndex a s)

/-- BIT z (R230). -/
def execBitZp (z : Byte) (s : State) : Step := .next (runZeroPage 0x24 (.read .bit) z s)

/-- BIT a (R230). -/
def execBitAbs (a : Addr) (s : State) : Step := .next (runAbsolute 0x2C (.read .bit) .noIndex a s)

/-- INX (R231). -/
def execInx (s : State) : Step := .next (runImplied 0xE8 .inx .implied s)

/-- INY (R232). -/
def execIny (s : State) : Step := .next (runImplied 0xC8 .iny .implied s)

/-- DEX (R233). -/
def execDex (s : State) : Step := .next (runImplied 0xCA .dex .implied s)

/-- DEY (R234). -/
def execDey (s : State) : Step := .next (runImplied 0x88 .dey .implied s)

/-- ASL A (R235). -/
def execAsl (s : State) : Step := .next (runImplied 0x0A .asl .accumulator s)

/-- LSR A (R236). -/
def execLsr (s : State) : Step := .next (runImplied 0x4A .lsr .accumulator s)

/-- ROL A (R237). -/
def execRol (s : State) : Step := .next (runImplied 0x2A .rol .accumulator s)

/-- ROR A (R238). -/
def execRor (s : State) : Step := .next (runImplied 0x6A .ror .accumulator s)

end Sys2Proof.Machine
end

