-- ==== Sys2Proof/Machine/Control.lean ====
section
/-! DEFINITION. The meanings of the branches, jump, flag instructions, NOP, and the undefined opcodes (43_control_and_flags.md rules R280-R298 and 60_exceptions.md rule R330): each is its operation's hook (Machine/Hooks.lean)
run on the schedule of its addressing mode (Machine/Operands.lean). -/

namespace Sys2Proof.Machine

/-- BPL rel (R281). -/
def execBpl (off : Byte) (s : State) : Step := .next (runBranch 0x10 .bpl off s)

/-- BMI rel (R282). -/
def execBmi (off : Byte) (s : State) : Step := .next (runBranch 0x30 .bmi off s)

/-- BVC rel (R283). -/
def execBvc (off : Byte) (s : State) : Step := .next (runBranch 0x50 .bvc off s)

/-- BVS rel (R284). -/
def execBvs (off : Byte) (s : State) : Step := .next (runBranch 0x70 .bvs off s)

/-- BCC rel (R285). -/
def execBcc (off : Byte) (s : State) : Step := .next (runBranch 0x90 .bcc off s)

/-- BCS rel (R286). -/
def execBcs (off : Byte) (s : State) : Step := .next (runBranch 0xB0 .bcs off s)

/-- BNE rel (R287). -/
def execBne (off : Byte) (s : State) : Step := .next (runBranch 0xD0 .bne off s)

/-- BEQ rel (R288). -/
def execBeq (off : Byte) (s : State) : Step := .next (runBranch 0xF0 .beq off s)

/-- JMP a (R289). -/
def execJmp (a : Addr) (s : State) : Step := .next (runJump 0x4C a s)

/-- CLC (R290). -/
def execClc (s : State) : Step := .next (runImplied 0x18 .clc .implied s)

/-- SEC (R291). -/
def execSec (s : State) : Step := .next (runImplied 0x38 .sec .implied s)

/-- CLI (R292). -/
def execCli (s : State) : Step := .next (runImplied 0x58 .cli .implied s)

/-- SEI (R293). -/
def execSei (s : State) : Step := .next (runImplied 0x78 .sei .implied s)

/-- CLV (R294). -/
def execClv (s : State) : Step := .next (runImplied 0xB8 .clv .implied s)

/-- CLD (R295). -/
def execCld (s : State) : Step := .next (runImplied 0xD8 .cld .implied s)

/-- SED (R296). -/
def execSed (s : State) : Step := .next (runImplied 0xF8 .sed .implied s)

/-- NOP (R297). -/
def execNop (s : State) : Step := .next (runImplied 0xEA .nop .implied s)

/-- An opcode byte with no routine: Dispatch takes the halt `UndefinedOpcode` (R106, R330). -/
def execUndefined (op : Byte) (s : State) : Step := .next (runUndefined op s)

end Sys2Proof.Machine
end

