-- ==== Sys2Proof/Machine/LoadStore.lean ====
section
/-! DEFINITION. The meanings of the loads, stores and register transfers (41_load_store_transfer.md rules R178-R191): each is its operation's hook (Machine/Hooks.lean)
run on the schedule of its addressing mode (Machine/Operands.lean). -/

namespace Sys2Proof.Machine

/-- LDA #m (R180). -/
def execLdaImm (m : Byte) (s : State) : Step := .next (runImmediate 0xA9 .lda m s)

/-- LDA z (R180). -/
def execLdaZp (z : Byte) (s : State) : Step := .next (runZeroPage 0xA5 (.read .lda) z s)

/-- LDA a (R180). -/
def execLdaAbs (a : Addr) (s : State) : Step := .next (runAbsolute 0xAD (.read .lda) .noIndex a s)

/-- LDA a,X (R180). -/
def execLdaAbsX (a : Addr) (s : State) : Step := .next (runAbsolute 0xBD (.read .lda) .x a s)

/-- LDA a,Y (R180). -/
def execLdaAbsY (a : Addr) (s : State) : Step := .next (runAbsolute 0xB9 (.read .lda) .y a s)

/-- LDX #m (R181). -/
def execLdxImm (m : Byte) (s : State) : Step := .next (runImmediate 0xA2 .ldx m s)

/-- LDX z (R181). -/
def execLdxZp (z : Byte) (s : State) : Step := .next (runZeroPage 0xA6 (.read .ldx) z s)

/-- LDX a (R181). -/
def execLdxAbs (a : Addr) (s : State) : Step := .next (runAbsolute 0xAE (.read .ldx) .noIndex a s)

/-- LDX a,Y (R181). -/
def execLdxAbsY (a : Addr) (s : State) : Step := .next (runAbsolute 0xBE (.read .ldx) .y a s)

/-- LDY #m (R182). -/
def execLdyImm (m : Byte) (s : State) : Step := .next (runImmediate 0xA0 .ldy m s)

/-- LDY z (R182). -/
def execLdyZp (z : Byte) (s : State) : Step := .next (runZeroPage 0xA4 (.read .ldy) z s)

/-- LDY a (R182). -/
def execLdyAbs (a : Addr) (s : State) : Step := .next (runAbsolute 0xAC (.read .ldy) .noIndex a s)

/-- LDY a,X (R182). -/
def execLdyAbsX (a : Addr) (s : State) : Step := .next (runAbsolute 0xBC (.read .ldy) .x a s)

/-- STA z (R183). -/
def execStaZp (z : Byte) (s : State) : Step := .next (runZeroPage 0x85 (.store .sta) z s)

/-- STA a (R183). -/
def execStaAbs (a : Addr) (s : State) : Step := .next (runAbsolute 0x8D (.store .sta) .noIndex a s)

/-- STA a,X (R183). -/
def execStaAbsX (a : Addr) (s : State) : Step := .next (runAbsolute 0x9D (.store .sta) .x a s)

/-- STA a,Y (R183). -/
def execStaAbsY (a : Addr) (s : State) : Step := .next (runAbsolute 0x99 (.store .sta) .y a s)

/-- STX z (R184). -/
def execStxZp (z : Byte) (s : State) : Step := .next (runZeroPage 0x86 (.store .stx) z s)

/-- STX a (R184). -/
def execStxAbs (a : Addr) (s : State) : Step := .next (runAbsolute 0x8E (.store .stx) .noIndex a s)

/-- STY z (R185). -/
def execStyZp (z : Byte) (s : State) : Step := .next (runZeroPage 0x84 (.store .sty) z s)

/-- STY a (R185). -/
def execStyAbs (a : Addr) (s : State) : Step := .next (runAbsolute 0x8C (.store .sty) .noIndex a s)

/-- TAX (R186). -/
def execTax (s : State) : Step := .next (runImplied 0xAA .tax .implied s)

/-- TAY (R187). -/
def execTay (s : State) : Step := .next (runImplied 0xA8 .tay .implied s)

/-- TXA (R188). -/
def execTxa (s : State) : Step := .next (runImplied 0x8A .txa .implied s)

/-- TYA (R189). -/
def execTya (s : State) : Step := .next (runImplied 0x98 .tya .implied s)

/-- TSX (R190). -/
def execTsx (s : State) : Step := .next (runImplied 0xBA .tsx .implied s)

/-- TXS (R191). -/
def execTxs (s : State) : Step := .next (runImplied 0x9A .txs .implied s)

end Sys2Proof.Machine
end

