-- ==== Sys2Proof/Machine/Dispatch.lean ====
section
/-! DEFINITION. The meaning of every instruction: one arm per constructor of `Instr`. -/

namespace Sys2Proof.Machine

def exec (i : Instr) (s : State) : Host.Outcome State Fault Refusal :=
  match i with
  | .ldaImm m => Sys2Proof.Machine.execLdaImm m s
  | .ldaZp z => Sys2Proof.Machine.execLdaZp z s
  | .ldaAbs a => Sys2Proof.Machine.execLdaAbs a s
  | .ldaAbsX a => Sys2Proof.Machine.execLdaAbsX a s
  | .ldaAbsY a => Sys2Proof.Machine.execLdaAbsY a s
  | .ldxImm m => Sys2Proof.Machine.execLdxImm m s
  | .ldxZp z => Sys2Proof.Machine.execLdxZp z s
  | .ldxAbs a => Sys2Proof.Machine.execLdxAbs a s
  | .ldxAbsY a => Sys2Proof.Machine.execLdxAbsY a s
  | .ldyImm m => Sys2Proof.Machine.execLdyImm m s
  | .ldyZp z => Sys2Proof.Machine.execLdyZp z s
  | .ldyAbs a => Sys2Proof.Machine.execLdyAbs a s
  | .ldyAbsX a => Sys2Proof.Machine.execLdyAbsX a s
  | .staZp z => Sys2Proof.Machine.execStaZp z s
  | .staAbs a => Sys2Proof.Machine.execStaAbs a s
  | .staAbsX a => Sys2Proof.Machine.execStaAbsX a s
  | .staAbsY a => Sys2Proof.Machine.execStaAbsY a s
  | .stxZp z => Sys2Proof.Machine.execStxZp z s
  | .stxAbs a => Sys2Proof.Machine.execStxAbs a s
  | .styZp z => Sys2Proof.Machine.execStyZp z s
  | .styAbs a => Sys2Proof.Machine.execStyAbs a s
  | .tax => Sys2Proof.Machine.execTax s
  | .tay => Sys2Proof.Machine.execTay s
  | .txa => Sys2Proof.Machine.execTxa s
  | .tya => Sys2Proof.Machine.execTya s
  | .tsx => Sys2Proof.Machine.execTsx s
  | .txs => Sys2Proof.Machine.execTxs s
  | .adcImm m => Sys2Proof.Machine.execAdcImm m s
  | .adcZp z => Sys2Proof.Machine.execAdcZp z s
  | .adcAbs a => Sys2Proof.Machine.execAdcAbs a s
  | .adcAbsX a => Sys2Proof.Machine.execAdcAbsX a s
  | .adcAbsY a => Sys2Proof.Machine.execAdcAbsY a s
  | .sbcImm m => Sys2Proof.Machine.execSbcImm m s
  | .sbcZp z => Sys2Proof.Machine.execSbcZp z s
  | .sbcAbs a => Sys2Proof.Machine.execSbcAbs a s
  | .sbcAbsX a => Sys2Proof.Machine.execSbcAbsX a s
  | .sbcAbsY a => Sys2Proof.Machine.execSbcAbsY a s
  | .andImm m => Sys2Proof.Machine.execAndImm m s
  | .andZp z => Sys2Proof.Machine.execAndZp z s
  | .andAbs a => Sys2Proof.Machine.execAndAbs a s
  | .andAbsX a => Sys2Proof.Machine.execAndAbsX a s
  | .andAbsY a => Sys2Proof.Machine.execAndAbsY a s
  | .oraImm m => Sys2Proof.Machine.execOraImm m s
  | .oraZp z => Sys2Proof.Machine.execOraZp z s
  | .oraAbs a => Sys2Proof.Machine.execOraAbs a s
  | .oraAbsX a => Sys2Proof.Machine.execOraAbsX a s
  | .oraAbsY a => Sys2Proof.Machine.execOraAbsY a s
  | .eorImm m => Sys2Proof.Machine.execEorImm m s
  | .eorZp z => Sys2Proof.Machine.execEorZp z s
  | .eorAbs a => Sys2Proof.Machine.execEorAbs a s
  | .eorAbsX a => Sys2Proof.Machine.execEorAbsX a s
  | .eorAbsY a => Sys2Proof.Machine.execEorAbsY a s
  | .cmpImm m => Sys2Proof.Machine.execCmpImm m s
  | .cmpZp z => Sys2Proof.Machine.execCmpZp z s
  | .cmpAbs a => Sys2Proof.Machine.execCmpAbs a s
  | .cmpAbsX a => Sys2Proof.Machine.execCmpAbsX a s
  | .cmpAbsY a => Sys2Proof.Machine.execCmpAbsY a s
  | .cpxImm m => Sys2Proof.Machine.execCpxImm m s
  | .cpxZp z => Sys2Proof.Machine.execCpxZp z s
  | .cpxAbs a => Sys2Proof.Machine.execCpxAbs a s
  | .cpyImm m => Sys2Proof.Machine.execCpyImm m s
  | .cpyZp z => Sys2Proof.Machine.execCpyZp z s
  | .cpyAbs a => Sys2Proof.Machine.execCpyAbs a s
  | .bitZp z => Sys2Proof.Machine.execBitZp z s
  | .bitAbs a => Sys2Proof.Machine.execBitAbs a s
  | .inx => Sys2Proof.Machine.execInx s
  | .iny => Sys2Proof.Machine.execIny s
  | .dex => Sys2Proof.Machine.execDex s
  | .dey => Sys2Proof.Machine.execDey s
  | .asl => Sys2Proof.Machine.execAsl s
  | .lsr => Sys2Proof.Machine.execLsr s
  | .rol => Sys2Proof.Machine.execRol s
  | .ror => Sys2Proof.Machine.execRor s
  | .bpl off => Sys2Proof.Machine.execBpl off s
  | .bmi off => Sys2Proof.Machine.execBmi off s
  | .bvc off => Sys2Proof.Machine.execBvc off s
  | .bvs off => Sys2Proof.Machine.execBvs off s
  | .bcc off => Sys2Proof.Machine.execBcc off s
  | .bcs off => Sys2Proof.Machine.execBcs off s
  | .bne off => Sys2Proof.Machine.execBne off s
  | .beq off => Sys2Proof.Machine.execBeq off s
  | .jmp a => Sys2Proof.Machine.execJmp a s
  | .clc => Sys2Proof.Machine.execClc s
  | .sec => Sys2Proof.Machine.execSec s
  | .cli => Sys2Proof.Machine.execCli s
  | .sei => Sys2Proof.Machine.execSei s
  | .clv => Sys2Proof.Machine.execClv s
  | .cld => Sys2Proof.Machine.execCld s
  | .sed => Sys2Proof.Machine.execSed s
  | .nop => Sys2Proof.Machine.execNop s
  | .undefined op => Sys2Proof.Machine.execUndefined op s

end Sys2Proof.Machine
end

