-- ==== Sys2Proof/Machine/Step.lean ====
section
/-! DEFINITION. One step of the interface, and how the host places an instruction for it. -/

namespace Sys2Proof.Machine

/-- One step (R10, R341). At an instruction boundary it runs the instruction at `PC` whole, tick by tick (its meaning is the
micro-operations of its schedule); in every other state it is one master tick. DESIGN CHOICE (log 2), safe: either way the
state after it is one the clock driver reaches by master ticks. -/
def step (s : State) : Host.Outcome State Fault Refusal :=
  if atBoundary s then exec (fetchInstr s) s else .next (masterTick s)

/-- The state with the instruction of the word placed where the next step fetches it, its bits above `nbits` zero. An instruction is
fetched at an instruction boundary only, so the block is put at one: the queue empty (the reset micro-operations done), no halt,
the canonical clock on a CPU tick. The bytes go to RAM or program storage at `PC`, or to program storage at 0x8000 with `PC`
there when `PC` is in neither (log 7). -/
def State.withFetchWord (s : State) (nbits w : Nat) : State :=
  let v := w % 2 ^ nbits
  let a := if isLoadable s.pc then s.pc else 0x8000
  loadByte a (BitVec.ofNat 8 v) <|
    loadByte (a + 1) (BitVec.ofNat 8 (v / 256)) <|
      loadByte (a + 2) (BitVec.ofNat 8 (v / 65536)) <| putAtBoundary a s

end Sys2Proof.Machine
end

