-- ==== Sys2Proof/Safety.lean ====
section
/-! DEFINITION. The terms claims are stated in: the invariant of the block, what an instruction's schedule takes on the clock and on
the bus (40_scheduler.md rules R151, R152), and the whole state after an instruction that ran its own effect. -/

namespace Sys2Proof.Machine

/-! ### The invariant -/

/-- The queues the block can hold (R27, R136-R149): the reset sequence, or what is left of some schedule. -/
def legalQueues : List (List MicroOp) :=
  [ [],
    [.reset0, .reset1, .reset2], [.reset1, .reset2], [.reset2],
    [.dispatch], [.commit], [.zpLo],
    [.penalty, .access, .commit], [.access, .commit], [.penalty, .store], [.store],
    [.branchCheck], [.branchTake], [.branchTake, .penalty], [.penalty],
    [.absLo, .jmpHi], [.jmpHi],
    [.absLo, .absHi .noIndex], [.absLo, .absHi .x], [.absLo, .absHi .y],
    [.absHi .noIndex], [.absHi .x], [.absHi .y] ]

/-- A halt record fits the block that holds it: an undefined-opcode halt names an opcode byte that is not admitted and the address one
below `PC` (R330), an unmapped-access halt names an unmapped address and needs the policy `Fault` (R333); it was raised at an
earlier master tick, one on which the CPU runs (R332, R344), and the registers and `PC` are still those of its snapshot (R334). -/
def haltFits (s : State) (r : HaltRecord) : Bool :=
  decide (r.t < s.t) && (r.t % cpuPeriod == 0) && (r.regs == s.regs) && (r.pc == s.pc) &&
    match r.reason with
    | .undefinedOpcode op addr => !isAdmitted op && (addr == r.pc - 1)
    | .unmappedAccess addr _ => !isMapped addr && (s.cfg.unmappedPolicy == .fault)

/-- The invariant of a block under the canonical clock. -/
structure Inv (s : State) : Prop where
  /-- the parameters are admissible and the program storage is canonical (R351, R410) -/
  config : validConfig s.cfg = true
  /-- RAM is in canonical form (R32) -/
  ramCanonical : s.ram.wf = true
  /-- RAM has 2048 bytes (R32) -/
  ramBounded : s.ram.below ramSize = true
  /-- the registrations are the canonical two (R342) -/
  clock : s.div = canonicalDiv
  /-- the PPU has made one tick for each multiple of 4 that `t` has passed (R344, R352) -/
  position : s.ppu.pos = (s.t + 3) / 4 % s.cfg.frame
  /-- nothing sets the two sprite latches (R353) -/
  sprites : s.ppu.s0hit = false ∧ s.ppu.sovf = false
  /-- the queue is what is left of a schedule (R27) -/
  queue : s.q ∈ legalQueues
  /-- a halt record fits (R330, R333) -/
  halted : ∀ r, s.halt = some r → haltFits s r = true

/-! ### Starting an instruction -/

/-- The CPU is in the Decode state (R154). -/
abbrev Ready (s : State) : Prop := s.halt = none ∧ s.q = []

/-- No bus step at one of these addresses can halt the CPU (R66). -/
abbrev BusClear (s : State) (as : List Addr) : Prop :=
  s.cfg.unmappedPolicy = .zero ∨ as.all isMapped = true

/-! ### The PPU beside an instruction -/

/-- Three PPU ticks, the time of one CPU tick (R344). -/
def ppuThree (cfg : Config) (p : Ppu) : Ppu := ppuTick cfg (ppuTick cfg (ppuTick cfg p))

/-- What a bus read of an address leaves of the PPU: a status read clears `vbl` (R78, R355). -/
def ppuAfterRead (a : Addr) (p : Ppu) : Ppu := if isStatus a then { p with vbl := false } else p

/-- The PPU after CPU ticks whose bus steps read these addresses, in order (R344, R355). -/
def ppuRun (cfg : Config) (as : List Addr) (p : Ppu) : Ppu :=
  as.foldl (fun u a => ppuThree cfg (ppuAfterRead a u)) p

/-- The byte the bus returns for a read of `a` in the CPU tick that follows ticks reading `before`: the status byte as it stands then
(R355, R413), or the byte at the address. -/
def busByte (s : State) (before : List Addr) (a : Addr) : Byte :=
  if isStatus a then statusByte (ppuRun s.cfg before s.ppu) else peek s a

/-! ### The state after an instruction that halts on nothing -/

/-- The state after an instruction that writes nothing to the bus: the register file, `PC` and scratch record given; the transaction
register holding the last read; the PPU and the clock moved on by the CPU ticks whose bus steps read `reads` and then `last`;
everything else (queue, halt record, RAM, registrations, parameters) as it was. -/
def ranReading (s : State) (r : Regs) (pc : Addr) (c : Scratch) (reads : List Addr) (last : Addr) : State :=
  { s with
    regs := r
    pc := pc
    scratch := c
    tx := ⟨last, busByte s reads last, .read⟩
    ppu := ppuRun s.cfg (reads ++ [last]) s.ppu
    t := s.t + 12 * (reads.length + 1) }

/-- The state after a store: `v` written to `ea` in the last CPU tick, after ticks whose bus steps read `reads`. RAM takes the byte, a
PPU register logs it, program storage and unmapped addresses drop it (R62-R66, R357). No register or flag changes. -/
def ranStoring (s : State) (pc : Addr) (c : Scratch) (reads : List Addr) (ea : Addr) (v : Byte) : State :=
  let p := ppuRun s.cfg reads s.ppu
  { s with
    pc := pc
    scratch := c
    tx := ⟨ea, v, .write⟩
    ram := match decodeAddr ea with
      | .ram o => s.ram.write o v
      | _ => s.ram
    ppu := ppuThree s.cfg (match decodeAddr ea with
      | .ppu o => { p with log := p.log ++ [(o, v)] }
      | _ => p)
    t := s.t + 12 * (reads.length + 1) }

/-- The scratch record after an instruction with an effective address (R137, R139-R141). -/
abbrev scratchEa (s : State) (op lo : Byte) (ea : Addr) : Scratch := { s.scratch with op := op, lo := lo, ea := ea }

/-- `P` with Z and N set from a result (R25). -/
def withNZ (v : Byte) (p : Flags) : Flags := { p with z := decide (v = 0), n := v.getLsbD 7 }

/-! ### The forms of an instruction, by class and mode (R101, R138, R151, R152)

Each says: these are its bytes, and from every ready state on which no bus step of it halts, `exec` answers exactly this next state. -/

/-- An implied or accumulator instruction: 2 ticks, both reading the opcode address. -/
def ImpliedForm (i : Instr) (op : Byte) (effect : Regs → Regs) : Prop :=
  encode i = [op] ∧ ∀ s, Ready s → BusClear s [s.pc] →
    exec i s = .next (ranReading s (effect s.regs) (s.pc + 1) { s.scratch with op := op } [s.pc] s.pc)

/-- A read-class instruction with an immediate byte: 3 ticks. -/
def ImmediateForm (i : Instr) (op m : Byte) (effect : Byte → Regs → Regs) : Prop :=
  encode i = [op, m] ∧ ∀ s, Ready s → BusClear s [s.pc, s.pc + 1] →
    exec i s = .next (ranReading s (effect m s.regs) (s.pc + 2) { s.scratch with op := op } [s.pc, s.pc + 1] (s.pc + 1))

/-- A read-class instruction with a zero-page byte: 5 ticks, the data read in the last two. -/
def ZeroPageForm (i : Instr) (op z : Byte) (effect : Byte → Regs → Regs) : Prop :=
  encode i = [op, z] ∧ ∀ s, Ready s → BusClear s [s.pc, s.pc + 1] →
    let ea := zext16 z
    let fetches := [s.pc, s.pc + 1, s.pc + 1]
    exec i s = .next (ranReading s (effect (busByte s fetches ea) s.regs) (s.pc + 2) (scratchEa s op z ea) (fetches ++ [ea]) ea)

/-- The addresses the bus resolves before the data access of an absolute form: the fetches, and once more the last of them if a
penalty tick is owed. -/
def absoluteFetches (s : State) (penalty : Bool) : List Addr :=
  [s.pc, s.pc + 1, s.pc + 2, s.pc + 2] ++ if penalty then [s.pc + 2] else []

/-- A read-class instruction with an absolute or absolute-indexed address: 6 ticks, 7 if the index crosses a page and
`IDX_PAGE_PENALTY` holds. `index` is the value added to the address, or none. -/
def AbsoluteForm (i : Instr) (op : Byte) (a : Addr) (index : Regs → Option Byte) (effect : Byte → Regs → Regs) : Prop :=
  encode i = [op, loByte a, hiByte a] ∧ ∀ s, Ready s →
    let ea := a + zext16 ((index s.regs).getD 0)
    let fetches := absoluteFetches s ((hiByte ea != hiByte a) && s.cfg.idxPagePenalty)
    BusClear s (fetches ++ [ea]) →
    exec i s = .next
      (ranReading s (effect (busByte s fetches ea) s.regs) (s.pc + 3) (scratchEa s op (loByte a) ea) (fetches ++ [ea]) ea)

/-- A store with a zero-page byte: 4 ticks. -/
def ZeroPageStore (i : Instr) (op z : Byte) (source : Regs → Byte) : Prop :=
  encode i = [op, z] ∧ ∀ s, Ready s → BusClear s [s.pc, s.pc + 1] →
    exec i s = .next
      (ranStoring s (s.pc + 2) (scratchEa s op z (zext16 z)) [s.pc, s.pc + 1, s.pc + 1] (zext16 z) (source s.regs))

/-- A store with an absolute or absolute-indexed address: 5 ticks, 6 for an indexed one if `IDX_PAGE_PENALTY` holds. -/
def AbsoluteStore (i : Instr) (op : Byte) (a : Addr) (index : Regs → Option Byte) (source : Regs → Byte) : Prop :=
  encode i = [op, loByte a, hiByte a] ∧ ∀ s, Ready s →
    let ea := a + zext16 ((index s.regs).getD 0)
    let fetches := absoluteFetches s ((index s.regs).isSome && s.cfg.idxPagePenalty)
    BusClear s (fetches ++ [ea]) →
    exec i s = .next (ranStoring s (s.pc + 3) (scratchEa s op (loByte a) ea) fetches ea (source s.regs))

/-- A branch: 3 ticks not taken, 4 taken, 5 taken to another page than that of the address after the offset byte if
`BRANCH_PAGE_PENALTY` holds. -/
def BranchForm (i : Instr) (op off : Byte) (cond : Flags → Bool) : Prop :=
  encode i = [op, off] ∧ ∀ s, Ready s → BusClear s [s.pc, s.pc + 1] →
    let next := s.pc + 2
    let target := next + sext16 off
    let c : Scratch := { s.scratch with op := op }
    exec i s = .next
      (if cond s.regs.p then
        ranReading s s.regs target { c with target := target }
          ([s.pc, s.pc + 1, s.pc + 1] ++
            if (hiByte target != hiByte next) && s.cfg.branchPagePenalty then [s.pc + 1] else []) (s.pc + 1)
      else ranReading s s.regs next c [s.pc, s.pc + 1] (s.pc + 1))

/-! ### The two tables of schedules -/

/-- The effective address of the memory access of an instruction in a mode, from its operand bytes (R101). -/
def effectiveAddr (m : Mode) (b1 b2 : Byte) (r : Regs) : Addr :=
  match m with
  | .absolute .noIndex => concat b2 b1
  | .absolute .x => concat b2 b1 + zext16 r.x
  | .absolute .y => concat b2 b1 + zext16 r.y
  | _ => zext16 b1

/-- The first and second operand byte of an instruction, 0 where it has none. -/
def operandBytes (i : Instr) : Byte × Byte := ((encode i).getD 1 0, (encode i).getD 2 0)

/-- The address of the memory operand of an instruction in a state (R101). -/
def operandAddr (i : Instr) (s : State) : Addr :=
  effectiveAddr i.entry.mode (operandBytes i).1 (operandBytes i).2 s.regs

/-- Whether an indexed access of the instruction crosses a page (R150). -/
def operandCrosses (i : Instr) (s : State) : Bool := hiByte (operandAddr i s) != (operandBytes i).2

/-- The target of the instruction as a branch at `PC` (R147). -/
def operandTarget (i : Instr) (s : State) : Addr := s.pc + 2 + sext16 (operandBytes i).1

/-- CPU ticks of an instruction, counting the decode tick: the table of rule R151. -/
def cpuTicks (i : Instr) (s : State) : Nat :=
  match i.entry.cls, i.entry.mode with
  | .implied _, _ => 2
  | .read _, .immediate => 3
  | .read _, .zeroPage => 5
  | .read _, .absolute .noIndex => 6
  | .read _, .absolute _ => if operandCrosses i s && s.cfg.idxPagePenalty then 7 else 6
  | .read _, _ => 2
  | .store _, .zeroPage => 4
  | .store _, .absolute .noIndex => 5
  | .store _, .absolute _ => if s.cfg.idxPagePenalty then 6 else 5
  | .store _, _ => 2
  | .branch o, _ =>
    if branchCond o s.regs.p then
      if (hiByte (operandTarget i s) != hiByte (s.pc + 2)) && s.cfg.branchPagePenalty then 5 else 4
    else 3
  | .jump, _ => 4
  | .undef, _ => 2

/-- The transaction the bus resolves on each CPU tick of an instruction at `PC`: the table of rule R152, with its penalty columns left
out where no penalty tick is owed. -/
def busRow (i : Instr) (s : State) : List (Dir × Addr) :=
  let p := s.pc
  let ea := operandAddr i s
  match i.entry.cls, i.entry.mode with
  | .implied _, _ => [(.read, p), (.read, p)]
  | .read _, .immediate => [(.read, p), (.read, p + 1), (.read, p + 1)]
  | .read _, .zeroPage => [(.read, p), (.read, p + 1), (.read, p + 1), (.read, ea), (.read, ea)]
  | .read _, .absolute idx =>
    [(.read, p), (.read, p + 1), (.read, p + 2), (.read, p + 2)] ++
      (if (idx != .noIndex) && operandCrosses i s && s.cfg.idxPagePenalty then [(.read, p + 2)] else []) ++
      [(.read, ea), (.read, ea)]
  | .read _, _ => [(.read, p), (.read, p)]
  | .store _, .zeroPage => [(.read, p), (.read, p + 1), (.read, p + 1), (.write, ea)]
  | .store _, .absolute idx =>
    [(.read, p), (.read, p + 1), (.read, p + 2), (.read, p + 2)] ++
      (if (idx != .noIndex) && s.cfg.idxPagePenalty then [(.read, p + 2)] else []) ++ [(.write, ea)]
  | .store _, _ => [(.read, p), (.read, p)]
  | .branch o, _ =>
    [(.read, p), (.read, p + 1), (.read, p + 1)] ++
      if branchCond o s.regs.p then
        (.read, p + 1) ::
          if (hiByte (operandTarget i s) != hiByte (p + 2)) && s.cfg.branchPagePenalty then [(.read, p + 1)] else []
      else []
  | .jump, _ => [(.read, p), (.read, p + 1), (.read, p + 2), (.read, p + 2)]
  | .undef, _ => [(.read, p), (.read, p)]

/-- The addresses the bus resolves in the first `n` CPU ticks of an instruction (R152). -/
def busAddrs (n : Nat) (i : Instr) (s : State) : List Addr := ((busRow i s).take n).map Prod.snd

/-- The state after an instruction with an absolute address whose data access, in CPU tick `n` (the decode tick is tick 0), is at an
unmapped address under `Fault` (R333, R336): `PC` is past the operand, the scratch record holds what the ticks before wrote, `rest` stays
in the queue, the transaction register holds the access with data `v` and so does the record (log 13), and the clock stops after
the PPU step of that master tick. Registers, flags and RAM are as before. -/
def haltedAtAccess (n : Nat) (dir : Dir) (v : Byte) (rest : List MicroOp) (i : Instr) (s : State) : State :=
  let ea := operandAddr i s
  { s with
    pc := s.pc + 3
    q := rest
    scratch := scratchEa s ((encode i).getD 0 0) (operandBytes i).1 ea
    tx := ⟨ea, v, dir⟩
    halt := some ⟨.unmappedAccess ea dir, s.regs, s.pc + 3, ⟨ea, v, dir⟩, s.t + 12 * n⟩
    ppu := ppuTick s.cfg (ppuRun s.cfg (busAddrs n i s) s.ppu)
    t := s.t + 12 * n + 1 }

/-- The transactions the bus resolves on the next `n` CPU ticks, as the clock driver runs them: what `tx` holds after each group of 12
master ticks. -/
def busTrace : Nat → State → List (Dir × Addr)
  | 0, _ => []
  | n + 1, s =>
    let u := runTicks 12 s
    (u.tx.dir, u.tx.addr) :: busTrace n u

end Sys2Proof.Machine
end

