-- ==== Sys2Proof/Certificates/Slice0/Obligations.lean ====
section
/-! DEFINITION. The statements for the provers. The forms `ImpliedForm`, `ImmediateForm`, `ZeroPageForm`, `AbsoluteForm`,
`ZeroPageStore`, `AbsoluteStore` and `BranchForm` (Safety.lean) say that `exec` answers exactly one next state, so each statement
built on them is a completion statement, a result and a frame at once. -/

open Sys2Proof Sys2Proof.Machine

/-! ### Encoding -/

/-- Decoding the bytes of a well-formed instruction, whatever follows them, gives it back (R100-R102, R104, R108). That an undefined opcode
takes one byte, so that decoding goes on after it, is the model's choice (log 15): R108 gives it no length. -/
def Obligations.DecodeOfEncodeIsTheInstruction : Prop :=
  ∀ (i : Instr) (rest : List Byte), i.wf = true → decode (encode i ++ rest) = .instr i rest

/-- What decodes is well formed, its bytes are the bytes it was decoded from, and its length is the table's (R100, R101, R108); the length 1
of an undefined opcode is the model's choice (log 15). -/
def Obligations.DecodedBytesEncodeBack : Prop :=
  ∀ (bs : List Byte) (i : Instr) (rest : List Byte), decode bs = .instr i rest →
    encode i ++ rest = bs ∧ i.wf = true ∧ (encode i).length = i.length

/-- Words written out from the opcode map (R104, R111) decode to the instructions they stand for. What is left after an undefined opcode (the
last word) is the model's choice (log 15). -/
def Obligations.WordsDecodeAsTheOpcodeMapSays : Prop :=
  decode [0xA9, 0x00] = .instr (.ldaImm 0x00) [] ∧
  decode [0xBE, 0xF0, 0x12] = .instr (.ldxAbsY 0x12F0) [] ∧
  decode [0x99, 0x34, 0x02] = .instr (.staAbsY 0x0234) [] ∧
  decode [0x69, 0x01] = .instr (.adcImm 0x01) [] ∧
  decode [0x2C, 0x02, 0x20] = .instr (.bitAbs 0x2002) [] ∧
  decode [0x6A, 0xEA] = .instr .ror [0xEA] ∧
  decode [0xD0, 0xFE] = .instr (.bne 0xFE) [] ∧
  decode [0x4C, 0x00, 0x80] = .instr (.jmp 0x8000) [] ∧
  decode [0xF8] = .instr .sed [] ∧
  decode [0x00] = .instr (.undefined 0x00) [] ∧
  decode [0x20, 0x34] = .instr (.undefined 0x20) [0x34]

/-- The table has an entry other than Undefined for exactly the bytes of the opcode map (R104, R105, R106), 90 of the 256. -/
def Obligations.TableIsUndefinedOffTheOpcodeMap : Prop :=
  (∀ op b1 b2 : Byte, (decodeBytes op b1 b2 = .undefined op ↔ isAdmitted op = false) ∧
    ((tableEntry op).cls = .undef ↔ isAdmitted op = false)) ∧
  admittedBytes.length = 90 ∧ admittedBytes.Nodup

/-! ### A step -/

/-- At an instruction boundary whose bytes at `PC` are those of a well-formed instruction, a step is its meaning; everywhere else a
step is one master tick. The bytes are passed by the meaning itself (the `PC` of the forms). The grain of a step is the model's choice
(log 2). -/
def Obligations.StepRunsTheDecodedInstruction : Prop :=
  (∀ (s : State) (i : Instr), atBoundary s = true → i.wf = true →
    (∀ k : Nat, k < (encode i).length → some (peek s (s.pc + BitVec.ofNat 16 k)) = (encode i)[k]?) → step s = exec i s) ∧
  (∀ s : State, atBoundary s = false → step s = .next (masterTick s))

/-- The instruction the host places is the one the next step runs, from every state with program storage and byte stores in canonical
form (the invariant has both). How a program comes to run is the model's choice (log 7). -/
def Obligations.PlacedWordIsRunByTheNextStep : Prop :=
  ∀ (s : State) (nbits w : Nat) (i : Instr), 1 ≤ s.cfg.prgBanks → s.cfg.prg.wf = true → s.ram.wf = true →
    decodeTableWord nbits w = some i →
    step (s.withFetchWord nbits w) = exec i (s.withFetchWord nbits w)

/-- The meaning of an instruction is what the scheduler does: from every boundary state, a step leads where the clock driver leads in
12 master ticks for each CPU tick of rule R151, stopping early on a halt. -/
def Obligations.StepIsTheSchedulersMasterTicks : Prop :=
  ∀ s : State, atBoundary s = true → step s = .next (runTicks (12 * cpuTicks (fetchInstr s) s) s)

/-- Every instruction of every state has a next state: the block never stops with anything but a halt, which is state. That a halt is state and no
fault is the model's inference (log 12). This says no more than that there is a next state. -/
def Obligations.EveryInstructionHasANextState : Prop :=
  (∀ (i : Instr) (s : State), ∃ t, exec i s = .next t) ∧ ∀ s : State, ∃ t, step s = .next t

/-! ### The invariant -/

/-- A step keeps the invariant, from every state that has it. -/
def Obligations.StepKeepsTheInvariant : Prop :=
  ∀ s t : State, Inv s → step s = .next t → Inv t

/-- A master tick keeps the invariant, from every state that has it. -/
def Obligations.MasterTickKeepsTheInvariant : Prop :=
  ∀ s : State, Inv s → Inv (masterTick s)

/-- Construction gives a state with the invariant, for every admissible parameter value and draw, and `State.reset` has it. The draws
of `State.reset` are the model's choice (logs 4 to 7); no clause rests on them. -/
def Obligations.ConstructionMeetsTheInvariant : Prop :=
  (∀ (cfg : Config) (d : Draws) (s : State), constructBlock cfg d = some s → Inv s) ∧ Inv State.reset

/-- The queue never holds more than three micro-operations (R27). -/
def Obligations.QueueHoldsAtMostThree : Prop :=
  ∀ s : State, Inv s → s.q.length ≤ 3

/-! ### Reset -/

/-- Construction sets every element that rule R37 gives a value for to that value, whatever the parameters and the open draws. -/
def Obligations.ConstructionSetsThePowerUpValues : Prop :=
  ∀ (cfg : Config) (d : Draws),
    let s := State.construct cfg d
    s.t = 0 ∧ s.div = [(12, .cpuBus), (4, .ppu)] ∧ s.q = [.reset0, .reset1, .reset2] ∧ s.halt = none ∧
    s.tx = ⟨0x0000, 0x00, .read⟩ ∧ s.ppu = ⟨0, false, false, false, []⟩ ∧ s.regs = d.regs ∧ s.ram = d.ram ∧ s.cfg = cfg

/-- The reset sequence takes 36 master ticks: `PC` is then the reset vector, the CPU is in the Decode state, the PPU has made 9 ticks,
and registers and RAM are as they were drawn. -/
def Obligations.ResetSequenceLoadsTheVector : Prop :=
  ∀ (cfg : Config) (d : Draws),
    let s := runTicks 36 (State.construct cfg d)
    s.pc = concat (prgByte cfg 0x7FFD) (prgByte cfg 0x7FFC) ∧ s.q = [] ∧ s.halt = none ∧ s.t = 36 ∧
    s.ppu.pos = 9 % cfg.frame ∧ s.regs = d.regs ∧ s.ram = d.ram ∧ atBoundary s = true

/-! ### Loads, stores, transfers -/

/-- LDA in its five modes (R180). -/
def Obligations.LdaLoadsTheAccumulator : Prop :=
  let effect : Byte → Regs → Regs := fun m r => { r with a := m, p := withNZ m r.p }
  (∀ m, ImmediateForm (.ldaImm m) 0xA9 m effect) ∧
  (∀ z, ZeroPageForm (.ldaZp z) 0xA5 z effect) ∧
  (∀ a, AbsoluteForm (.ldaAbs a) 0xAD a (fun _ => none) effect) ∧
  (∀ a, AbsoluteForm (.ldaAbsX a) 0xBD a (fun r => some r.x) effect) ∧
  (∀ a, AbsoluteForm (.ldaAbsY a) 0xB9 a (fun r => some r.y) effect)

/-- LDX in its four modes (R181). -/
def Obligations.LdxLoadsX : Prop :=
  let effect : Byte → Regs → Regs := fun m r => { r with x := m, p := withNZ m r.p }
  (∀ m, ImmediateForm (.ldxImm m) 0xA2 m effect) ∧
  (∀ z, ZeroPageForm (.ldxZp z) 0xA6 z effect) ∧
  (∀ a, AbsoluteForm (.ldxAbs a) 0xAE a (fun _ => none) effect) ∧
  (∀ a, AbsoluteForm (.ldxAbsY a) 0xBE a (fun r => some r.y) effect)

/-- LDY in its four modes (R182). -/
def Obligations.LdyLoadsY : Prop :=
  let effect : Byte → Regs → Regs := fun m r => { r with y := m, p := withNZ m r.p }
  (∀ m, ImmediateForm (.ldyImm m) 0xA0 m effect) ∧
  (∀ z, ZeroPageForm (.ldyZp z) 0xA4 z effect) ∧
  (∀ a, AbsoluteForm (.ldyAbs a) 0xAC a (fun _ => none) effect) ∧
  (∀ a, AbsoluteForm (.ldyAbsX a) 0xBC a (fun r => some r.x) effect)

/-- STA in its four modes (R183). -/
def Obligations.StaStoresTheAccumulator : Prop :=
  (∀ z, ZeroPageStore (.staZp z) 0x85 z (fun r => r.a)) ∧
  (∀ a, AbsoluteStore (.staAbs a) 0x8D a (fun _ => none) (fun r => r.a)) ∧
  (∀ a, AbsoluteStore (.staAbsX a) 0x9D a (fun r => some r.x) (fun r => r.a)) ∧
  (∀ a, AbsoluteStore (.staAbsY a) 0x99 a (fun r => some r.y) (fun r => r.a))

/-- STX and STY in their two modes (R184, R185). -/
def Obligations.StxAndStyStoreTheIndexRegisters : Prop :=
  (∀ z, ZeroPageStore (.stxZp z) 0x86 z (fun r => r.x)) ∧
  (∀ a, AbsoluteStore (.stxAbs a) 0x8E a (fun _ => none) (fun r => r.x)) ∧
  (∀ z, ZeroPageStore (.styZp z) 0x84 z (fun r => r.y)) ∧
  (∀ a, AbsoluteStore (.styAbs a) 0x8C a (fun _ => none) (fun r => r.y))

/-- The six transfers (R186-R191); TXS alone writes no flag. -/
def Obligations.TransfersCopyOneRegister : Prop :=
  ImpliedForm .tax 0xAA (fun r => { r with x := r.a, p := withNZ r.a r.p }) ∧
  ImpliedForm .tay 0xA8 (fun r => { r with y := r.a, p := withNZ r.a r.p }) ∧
  ImpliedForm .txa 0x8A (fun r => { r with a := r.x, p := withNZ r.x r.p }) ∧
  ImpliedForm .tya 0x98 (fun r => { r with a := r.y, p := withNZ r.y r.p }) ∧
  ImpliedForm .tsx 0xBA (fun r => { r with x := r.sp, p := withNZ r.sp r.p }) ∧
  ImpliedForm .txs 0x9A (fun r => { r with sp := r.x })

/-! ### Arithmetic, logic, compare, shift -/

/-- ADC in its five modes (R222): the sum in the integers, its low byte, carry above 255, and overflow exactly when the operands agree in
bit 7 and the result does not; `D` is not read (R221). -/
def Obligations.AdcAddsWithCarry : Prop :=
  let effect : Byte → Regs → Regs := fun m r =>
    let sum := r.a.toNat + m.toNat + r.p.c.toNat
    let res := BitVec.ofNat 8 sum
    { r with
      a := res
      p := withNZ res { r.p with
        c := decide (sum > 255)
        v := (r.a.getLsbD 7 == m.getLsbD 7) && (res.getLsbD 7 != r.a.getLsbD 7) } }
  (∀ m, ImmediateForm (.adcImm m) 0x69 m effect) ∧
  (∀ z, ZeroPageForm (.adcZp z) 0x65 z effect) ∧
  (∀ a, AbsoluteForm (.adcAbs a) 0x6D a (fun _ => none) effect) ∧
  (∀ a, AbsoluteForm (.adcAbsX a) 0x7D a (fun r => some r.x) effect) ∧
  (∀ a, AbsoluteForm (.adcAbsY a) 0x79 a (fun r => some r.y) effect)

/-- SBC in its five modes (R223): the difference with borrow in the integers, its low byte, carry when it is not negative, and overflow
when the operands differ in bit 7 and the result differs from `A` there. -/
def Obligations.SbcSubtractsWithBorrow : Prop :=
  let effect : Byte → Regs → Regs := fun m r =>
    let diff : Int := (r.a.toNat : Int) - m.toNat - (1 - r.p.c.toNat)
    let res := BitVec.ofInt 8 diff
    { r with
      a := res
      p := withNZ res { r.p with
        c := decide (0 ≤ diff)
        v := (r.a.getLsbD 7 != m.getLsbD 7) && (res.getLsbD 7 != r.a.getLsbD 7) } }
  (∀ m, ImmediateForm (.sbcImm m) 0xE9 m effect) ∧
  (∀ z, ZeroPageForm (.sbcZp z) 0xE5 z effect) ∧
  (∀ a, AbsoluteForm (.sbcAbs a) 0xED a (fun _ => none) effect) ∧
  (∀ a, AbsoluteForm (.sbcAbsX a) 0xFD a (fun r => some r.x) effect) ∧
  (∀ a, AbsoluteForm (.sbcAbsY a) 0xF9 a (fun r => some r.y) effect)

/-- AND, ORA and EOR in their five modes each (R224-R226). -/
def Obligations.LogicOperationsCombineWithA : Prop :=
  let andE : Byte → Regs → Regs := fun m r => { r with a := r.a &&& m, p := withNZ (r.a &&& m) r.p }
  let oraE : Byte → Regs → Regs := fun m r => { r with a := r.a ||| m, p := withNZ (r.a ||| m) r.p }
  let eorE : Byte → Regs → Regs := fun m r => { r with a := r.a ^^^ m, p := withNZ (r.a ^^^ m) r.p }
  (∀ m, ImmediateForm (.andImm m) 0x29 m andE ∧ ImmediateForm (.oraImm m) 0x09 m oraE ∧ ImmediateForm (.eorImm m) 0x49 m eorE) ∧
  (∀ z, ZeroPageForm (.andZp z) 0x25 z andE ∧ ZeroPageForm (.oraZp z) 0x05 z oraE ∧ ZeroPageForm (.eorZp z) 0x45 z eorE) ∧
  (∀ a, AbsoluteForm (.andAbs a) 0x2D a (fun _ => none) andE ∧ AbsoluteForm (.oraAbs a) 0x0D a (fun _ => none) oraE ∧
    AbsoluteForm (.eorAbs a) 0x4D a (fun _ => none) eorE) ∧
  (∀ a, AbsoluteForm (.andAbsX a) 0x3D a (fun r => some r.x) andE ∧ AbsoluteForm (.oraAbsX a) 0x1D a (fun r => some r.x) oraE ∧
    AbsoluteForm (.eorAbsX a) 0x5D a (fun r => some r.x) eorE) ∧
  (∀ a, AbsoluteForm (.andAbsY a) 0x39 a (fun r => some r.y) andE ∧ AbsoluteForm (.oraAbsY a) 0x19 a (fun r => some r.y) oraE ∧
    AbsoluteForm (.eorAbsY a) 0x59 a (fun r => some r.y) eorE)

/-- CMP in five modes, CPX and CPY in three (R227-R229): carry when the register is at least `M` as unsigned, Z when equal, N from the
difference modulo 256; no register changes. -/
def Obligations.ComparesSetCarryZeroNegative : Prop :=
  let compare : Byte → Byte → Regs → Regs := fun v m r =>
    { r with p := { r.p with c := decide (m.toNat ≤ v.toNat), z := decide (v = m), n := (v - m).getLsbD 7 } }
  let cmpE : Byte → Regs → Regs := fun m r => compare r.a m r
  let cpxE : Byte → Regs → Regs := fun m r => compare r.x m r
  let cpyE : Byte → Regs → Regs := fun m r => compare r.y m r
  (∀ m, ImmediateForm (.cmpImm m) 0xC9 m cmpE ∧ ImmediateForm (.cpxImm m) 0xE0 m cpxE ∧ ImmediateForm (.cpyImm m) 0xC0 m cpyE) ∧
  (∀ z, ZeroPageForm (.cmpZp z) 0xC5 z cmpE ∧ ZeroPageForm (.cpxZp z) 0xE4 z cpxE ∧ ZeroPageForm (.cpyZp z) 0xC4 z cpyE) ∧
  (∀ a, AbsoluteForm (.cmpAbs a) 0xCD a (fun _ => none) cmpE ∧ AbsoluteForm (.cpxAbs a) 0xEC a (fun _ => none) cpxE ∧
    AbsoluteForm (.cpyAbs a) 0xCC a (fun _ => none) cpyE) ∧
  (∀ a, AbsoluteForm (.cmpAbsX a) 0xDD a (fun r => some r.x) cmpE) ∧
  (∀ a, AbsoluteForm (.cmpAbsY a) 0xD9 a (fun r => some r.y) cmpE)

/-- BIT in its two modes (R230): Z from `A & M`, V and N from bits 6 and 7 of `M` itself. -/
def Obligations.BitTestsTheMemoryByte : Prop :=
  let effect : Byte → Regs → Regs := fun m r =>
    { r with p := { r.p with z := decide (r.a &&& m = 0), v := m.getLsbD 6, n := m.getLsbD 7 } }
  (∀ z, ZeroPageForm (.bitZp z) 0x24 z effect) ∧ (∀ a, AbsoluteForm (.bitAbs a) 0x2C a (fun _ => none) effect)

/-- INX, INY, DEX, DEY (R231-R234): modulo 256, Z and N, and neither C nor V. -/
def Obligations.IndexRegistersCountModulo256 : Prop :=
  let up : Byte → Byte := fun v => BitVec.ofNat 8 ((v.toNat + 1) % 256)
  let down : Byte → Byte := fun v => BitVec.ofNat 8 ((v.toNat + 255) % 256)
  ImpliedForm .inx 0xE8 (fun r => { r with x := up r.x, p := withNZ (up r.x) r.p }) ∧
  ImpliedForm .iny 0xC8 (fun r => { r with y := up r.y, p := withNZ (up r.y) r.p }) ∧
  ImpliedForm .dex 0xCA (fun r => { r with x := down r.x, p := withNZ (down r.x) r.p }) ∧
  ImpliedForm .dey 0x88 (fun r => { r with y := down r.y, p := withNZ (down r.y) r.p })

/-- ASL, LSR, ROL and ROR of the accumulator (R235-R238), in the integers: the bit shifted out goes to C, the old C comes in on a
rotate. -/
def Obligations.ShiftsMoveOneBitThroughCarry : Prop :=
  let shifted : Nat → Bool → Regs → Regs := fun v c r =>
    { r with a := BitVec.ofNat 8 v, p := withNZ (BitVec.ofNat 8 v) { r.p with c := c } }
  ImpliedForm .asl 0x0A (fun r => shifted (r.a.toNat * 2) (decide (128 ≤ r.a.toNat)) r) ∧
  ImpliedForm .lsr 0x4A (fun r => shifted (r.a.toNat / 2) (decide (r.a.toNat % 2 = 1)) r) ∧
  ImpliedForm .rol 0x2A (fun r => shifted (r.a.toNat * 2 + r.p.c.toNat) (decide (128 ≤ r.a.toNat)) r) ∧
  ImpliedForm .ror 0x6A (fun r => shifted (r.a.toNat / 2 + 128 * r.p.c.toNat) (decide (r.a.toNat % 2 = 1)) r)

/-! ### Branches, jump, flag instructions, NOP -/

/-- The eight branches (R280-R288): taken on their condition, to the address after the offset byte plus the signed offset, in 3, 4 or
5 ticks. -/
def Obligations.BranchesGoToTheSignedOffset : Prop :=
  ∀ off : Byte,
    BranchForm (.bpl off) 0x10 off (fun p => !p.n) ∧ BranchForm (.bmi off) 0x30 off (fun p => p.n) ∧
    BranchForm (.bvc off) 0x50 off (fun p => !p.v) ∧ BranchForm (.bvs off) 0x70 off (fun p => p.v) ∧
    BranchForm (.bcc off) 0x90 off (fun p => !p.c) ∧ BranchForm (.bcs off) 0xB0 off (fun p => p.c) ∧
    BranchForm (.bne off) 0xD0 off (fun p => !p.z) ∧ BranchForm (.beq off) 0xF0 off (fun p => p.z)

/-- JMP (R289): `PC` becomes the operand, in 4 ticks; no register, flag or memory byte changes. -/
def Obligations.JmpSetsTheProgramCounter : Prop :=
  ∀ a : Addr, encode (.jmp a) = [0x4C, loByte a, hiByte a] ∧
    ∀ s, Ready s → BusClear s [s.pc, s.pc + 1, s.pc + 2] →
      exec (.jmp a) s = .next
        (ranReading s s.regs a { s.scratch with op := 0x4C, lo := loByte a } [s.pc, s.pc + 1, s.pc + 2] (s.pc + 2))

/-- The seven flag instructions (R290-R296): each writes its one flag and nothing else. -/
def Obligations.FlagInstructionsWriteOneFlag : Prop :=
  ImpliedForm .clc 0x18 (fun r => { r with p := { r.p with c := false } }) ∧
  ImpliedForm .sec 0x38 (fun r => { r with p := { r.p with c := true } }) ∧
  ImpliedForm .cli 0x58 (fun r => { r with p := { r.p with i := false } }) ∧
  ImpliedForm .sei 0x78 (fun r => { r with p := { r.p with i := true } }) ∧
  ImpliedForm .clv 0xB8 (fun r => { r with p := { r.p with v := false } }) ∧
  ImpliedForm .cld 0xD8 (fun r => { r with p := { r.p with d := false } }) ∧
  ImpliedForm .sed 0xF8 (fun r => { r with p := { r.p with d := true } })

/-- NOP (R297): no register and no flag; `PC` moves by one and two ticks pass. -/
def Obligations.NopOnlyAdvances : Prop :=
  ImpliedForm .nop 0xEA (fun r => r)

/-! ### Halts -/

/-- An opcode byte off the map halts in its Dispatch tick (R106, R330, R331, R332): the record holds the opcode, its address, the register
snapshot, the transaction register and the tick; `PC` is one past the opcode and the queue is empty; beside the halt only `PC` and
`S.op` have changed, and the clock stops after the PPU step of that master tick. -/
def Obligations.UndefinedOpcodeHaltsInDispatch : Prop :=
  ∀ op : Byte, isAdmitted op = false → ∀ s, Ready s → BusClear s [s.pc] →
    exec (.undefined op) s = .next { s with
      pc := s.pc + 1
      scratch := { s.scratch with op := op }
      halt := some ⟨.undefinedOpcode op s.pc, s.regs, s.pc + 1, ⟨s.pc, busByte s [] s.pc, .read⟩, s.t + 12⟩
      tx := ⟨s.pc, busByte s [s.pc] s.pc, .read⟩
      ppu := ppuTick s.cfg (ppuAfterRead s.pc (ppuRun s.cfg [s.pc] s.ppu))
      t := s.t + 13 }

/-- A bus step at an unmapped address (R66, R333): the read gives 0 and the write is dropped; under `Fault` the CPU halts with the address
and direction unless it has halted already, under `Zero` nothing else happens. That the record's transaction register holds the 0 just read
is the model's inference (log 13). -/
def Obligations.UnmappedBusStepHaltsOnlyUnderFault : Prop :=
  ∀ s : State, isMapped s.tx.addr = false →
    let x : Tx := { s.tx with data := if s.tx.dir = .read then 0x00 else s.tx.data }
    (s.cfg.unmappedPolicy = .zero → busStep s = { s with tx := x }) ∧
    (s.cfg.unmappedPolicy = .fault → s.halt = none →
      busStep s = { s with tx := x, halt := some ⟨.unmappedAccess s.tx.addr s.tx.dir, s.regs, s.pc, x, s.t⟩ }) ∧
    (∀ r, s.halt = some r → busStep s = { s with tx := x })

/-- A mapped bus step raises no halt (R66, R333). -/
def Obligations.MappedBusStepRaisesNoHalt : Prop :=
  ∀ s : State, isMapped s.tx.addr = true → (busStep s).halt = s.halt

/-- Under `Fault`, an instruction whose opcode lies at an unmapped address halts in its decode tick (R334, R336): only `PC` has moved, and
Dispatch stays in the queue. That the record holds the data byte 0x00 is the model's inference (log 13). -/
def Obligations.UnmappedFetchHaltsAtTheDecodeTick : Prop :=
  ∀ (i : Instr) (s : State), Ready s → s.cfg.unmappedPolicy = .fault → isMapped s.pc = false →
    exec i s = .next { s with
      pc := s.pc + 1
      q := [.dispatch]
      tx := ⟨s.pc, 0x00, .read⟩
      halt := some ⟨.unmappedAccess s.pc .read, s.regs, s.pc + 1, ⟨s.pc, 0x00, .read⟩, s.t⟩
      ppu := ppuTick s.cfg s.ppu
      t := s.t + 1 }

/-- Under `Fault`, the data access of any read-class or store-class instruction with an absolute or indexed address halts in its own
tick if that address is unmapped (R336): a read halts in its Access tick, the last but one of its row, with Commit left in the queue and no
register written; a store halts in its Store tick, the last of its row, and no memory byte changes. (A zero-page address is always mapped.)
That the record of a read holds the data byte 0x00 is the model's inference (log 13). -/
def Obligations.UnmappedDataAccessLeavesTheRegister : Prop :=
  ∀ (i : Instr) (idx : Index) (s : State), i.entry.mode = .absolute idx → Ready s → s.cfg.unmappedPolicy = .fault →
    [s.pc, s.pc + 1, s.pc + 2].all isMapped = true → isMapped (operandAddr i s) = false →
    (∀ o, i.entry.cls = .read o → exec i s = .next (haltedAtAccess (cpuTicks i s - 2) .read 0x00 [.commit] i s)) ∧
    (∀ o, i.entry.cls = .store o →
      exec i s = .next (haltedAtAccess (cpuTicks i s - 1) .write (storeSrc o s.regs) [] i s))

/-- A halted CPU does nothing, and its halt record is never written again (R132, R334): a master tick, whatever callbacks fire in it,
keeps the record, the registers, `PC`, the queue, the scratch record and the transaction's address and direction. That a host callback changes
nothing in the block is the model's inference (log 11). -/
def Obligations.HaltedCpuNeverChanges : Prop :=
  ∀ (s : State) (r : HaltRecord), s.halt = some r →
    clk s = s ∧
    (let u := masterTick s
     u.halt = some r ∧ u.regs = s.regs ∧ u.pc = s.pc ∧ u.q = s.q ∧ u.scratch = s.scratch ∧ u.tx.addr = s.tx.addr ∧
      u.tx.dir = s.tx.dir ∧ u.t = s.t + 1)

/-- `step(n)` stops after the master tick that ends halted (R332, R345): asking for more ticks leads nowhere else. -/
def Obligations.HostRunStopsAtAHalt : Prop :=
  ∀ (n m : Nat) (s : State), (runTicks (n + 1) s).halt ≠ none → runTicks (n + 1 + m) s = runTicks (n + 1) s

/-! ### Memory and bus -/

/-- A RAM address reads the byte at its offset, with no side effect; in a store in canonical form (the invariant has it), a RAM byte
written through one address is read through each of its four, and every other address reads as before (R63, R68). -/
def Obligations.RamWriteIsReadThroughEveryMirror : Prop :=
  ∀ (s : State) (a b : Addr) (v : Byte), s.ram.wf = true → a.toNat < 0x2000 →
    memRead a s = (s.ram.read (a.toNat % 2048), s) ∧
    peek (memWrite a v s) b = if b.toNat < 0x2000 ∧ b.toNat % 2048 = a.toNat % 2048 then v else peek s b

/-- The address decoder picks the device and offset of rule R62, in the integers. -/
def Obligations.AddressDecoderFollowsTheMap : Prop :=
  ∀ a : Addr,
    (a.toNat < 0x2000 → decodeAddr a = .ram (a.toNat % 2048)) ∧
    (0x2000 ≤ a.toNat → a.toNat < 0x4000 → decodeAddr a = .ppu (BitVec.ofNat 3 (a.toNat % 8))) ∧
    (0x4000 ≤ a.toNat → a.toNat < 0x8000 → decodeAddr a = .unmapped) ∧
    (0x8000 ≤ a.toNat → decodeAddr a = .prg (a.toNat - 0x8000))

/-- Writes to unmapped addresses and to program storage are dropped, unmapped reads give 0, and program storage reads
`PRG[o mod len(PRG)]`, with no side effect (R64, R66, R85). -/
def Obligations.UnwritableAddressesDropTheWrite : Prop :=
  ∀ (s : State) (a : Addr) (v : Byte), 0x4000 ≤ a.toNat →
    memWrite a v s = s ∧ (memRead a s).2 = s ∧
    (a.toNat < 0x8000 → (memRead a s).1 = 0x00) ∧
    (0x8000 ≤ a.toNat → (memRead a s).1 = s.cfg.prg.read ((a.toNat - 0x8000) % (16384 * s.cfg.prgBanks)))

/-- Stores in canonical form with equal contents are equal. The form is the model's own (log 5). -/
def Obligations.CanonicalStoresAreEqualWhenTheyReadEqual : Prop :=
  ∀ m n : Memory, m.wf = true → n.wf = true → (∀ k, m.read k = n.read k) → m = n

/-- A read of the status register returns the three latches in bits 7, 6 and 5 over zeros and clears `vbl`; nothing else
changes (R355). -/
def Obligations.StatusReadReturnsAndClearsVblank : Prop :=
  ∀ (s : State) (a : Addr), 0x2000 ≤ a.toNat → a.toNat < 0x4000 → a.toNat % 8 = 2 →
    ((memRead a s).1.toNat =
      128 * s.ppu.vbl.toNat + 64 * s.ppu.s0hit.toNat + 32 * s.ppu.sovf.toNat) ∧
    (memRead a s).2 = { s with ppu := { s.ppu with vbl := false } }

/-- Reads of the other PPU registers return 0 without effect (R356), and a write to any of the eight appends its offset and value to the
log and changes nothing else (R357). -/
def Obligations.PpuWritesAreLoggedAndOtherReadsAreZero : Prop :=
  ∀ (s : State) (a : Addr) (v : Byte), 0x2000 ≤ a.toNat → a.toNat < 0x4000 →
    (a.toNat % 8 ≠ 2 → memRead a s = (0x00, s)) ∧
    memWrite a v s = { s with ppu := { s.ppu with log := s.ppu.log ++ [(BitVec.ofNat 3 (a.toNat % 8), v)] } }

/-- A parameter value, and with it program storage, is never changed: not by a step, not by a master tick (R33, R85); nor are the
registrations (R36). The master-tick clauses hold for any registrations: a host callback changes nothing in the block (log 11). -/
def Obligations.ProgramStorageAndParametersAreConstant : Prop :=
  (∀ s t : State, step s = .next t → t.cfg = s.cfg ∧ t.div = s.div) ∧
  (∀ s : State, (masterTick s).cfg = s.cfg ∧ (masterTick s).div = s.div)

/-! ### Frames over all instructions -/

/-- Only the instructions of rule R26 write a flag; no instruction writes B. -/
def Obligations.OnlyTheListedInstructionsWriteAFlag : Prop :=
  ∀ (i : Instr) (s t : State), exec i s = .next t →
    t.regs.p.b = s.regs.p.b ∧
    (t.regs.p.i ≠ s.regs.p.i → i = .cli ∨ i = .sei) ∧
    (t.regs.p.d ≠ s.regs.p.d → i = .cld ∨ i = .sed) ∧
    (t.regs.p.v ≠ s.regs.p.v → i.entry.cls ∈ [.read .adc, .read .sbc, .read .bit, .implied .clv]) ∧
    (t.regs.p.c ≠ s.regs.p.c → i.entry.cls ∈ [.read .adc, .read .sbc, .read .cmp, .read .cpx, .read .cpy, .implied .asl,
      .implied .lsr, .implied .rol, .implied .ror, .implied .clc, .implied .sec]) ∧
    (t.regs.p.z ≠ s.regs.p.z ∨ t.regs.p.n ≠ s.regs.p.n →
      (∃ o, i.entry.cls = .read o) ∨ i.entry.cls ∈ [.implied .tax, .implied .tay, .implied .txa, .implied .tya, .implied .tsx,
        .implied .inx, .implied .iny, .implied .dex, .implied .dey, .implied .asl, .implied .lsr, .implied .rol, .implied .ror])

/-- Only the instructions that name a register as their destination write it (R22, R178, R220): SP only by TXS. -/
def Obligations.OnlyTheDestinationRegisterChanges : Prop :=
  ∀ (i : Instr) (s t : State), exec i s = .next t →
    (t.regs.sp ≠ s.regs.sp → i = .txs) ∧
    (t.regs.a ≠ s.regs.a → i.entry.cls ∈ [.read .lda, .read .adc, .read .sbc, .read .and, .read .ora, .read .eor, .implied .txa,
      .implied .tya, .implied .asl, .implied .lsr, .implied .rol, .implied .ror]) ∧
    (t.regs.x ≠ s.regs.x → i.entry.cls ∈ [.read .ldx, .implied .tax, .implied .tsx, .implied .inx, .implied .dex]) ∧
    (t.regs.y ≠ s.regs.y → i.entry.cls ∈ [.read .ldy, .implied .tay, .implied .iny, .implied .dey])

/-- An instruction that is not a store leaves every byte of memory as it was, and writes nothing to the PPU: every address but the
status register's reads as before (the status byte moves with the PPU's own clock). -/
def Obligations.OnlyStoresChangeMemory : Prop :=
  ∀ (i : Instr) (s t : State), (∀ o, i.entry.cls ≠ .store o) → exec i s = .next t →
    t.ram = s.ram ∧ t.ppu.log = s.ppu.log ∧ ∀ a, isStatus a = false → peek t a = peek s a

/-- A store that halts on nothing changes, of all bytes that can be read, only the RAM byte its effective address selects, in all its
mirrors; every other address but the status register's reads as before. A store outside RAM changes none of them. RAM is in the
canonical form that the invariant has. -/
def Obligations.StoresChangeOnlyTheAddressedByte : Prop :=
  ∀ (i : Instr) (o : StoreOp) (s t : State), i.entry.cls = .store o → s.ram.wf = true → exec i s = .next t →
    s.halt = none → t.halt = none → ∀ a, isStatus a = false →
      peek t a = if (operandAddr i s).toNat < 0x2000 ∧ a.toNat < 0x2000 ∧ a.toNat % 2048 = (operandAddr i s).toNat % 2048
        then storeSrc o s.regs else peek s a

/-- An instruction that does not halt takes the CPU ticks of rule R151, 12 master ticks each, for every instruction, mode, crossing and
penalty parameter (R418). -/
def Obligations.InstructionsTakeTheTicksOfTheTable : Prop :=
  ∀ (i : Instr) (s t : State), exec i s = .next t → t.halt = none → t.t = s.t + 12 * cpuTicks i s

/-- The scheduler's bus traffic is the table of rule R152, row by row, and has one transaction for each CPU tick of rule R151. -/
def Obligations.BusTrafficFollowsTheTable : Prop :=
  ∀ s : State, atBoundary s = true →
    let i := fetchInstr s
    (busRow i s).length = cpuTicks i s ∧
    (BusClear s ((busRow i s).map Prod.snd) → busTrace (cpuTicks i s) s = busRow i s)

/-- A vertical blank that sets in the three PPU ticks after the Access of a status read is lost (R413, R414), whichever read-class
instruction reads, in the absolute and both indexed modes (a zero-page address is never a status register): its operand is the status
byte before the set, bit 7 clear, so a load and the `BIT` of a polling loop leave N clear; the Commit tick's read of the same address sees
the latch set, and clears it. -/
def Obligations.VblankSetDuringAReadIsLost : Prop :=
  ∀ (i : Instr) (o : ReadOp) (idx : Index) (s : State), i.entry = ⟨.read o, .absolute idx⟩ → Ready s →
    BusClear s [s.pc, s.pc + 1, s.pc + 2] → isStatus (operandAddr i s) = true →
    let p := ppuRun s.cfg (busAddrs (cpuTicks i s - 2) i s) s.ppu
    p.vbl = false → (ppuThree s.cfg p).vbl = true →
    ∃ t, exec i s = .next t ∧ (statusByte p).getLsbD 7 = false ∧ t.regs = execHook o (statusByte p) s.regs ∧
      (o ∈ [.lda, .ldx, .ldy, .bit] → t.regs.p.n = false) ∧ t.tx.data.getLsbD 7 = true ∧
      t.ppu = ppuThree s.cfg { ppuThree s.cfg p with vbl := false }

/-! ### Clock and PPU -/

/-- `clk()` in the Decode state is the decode step (R133): a read of `PC`, `PC` one further, the queue exactly Dispatch, and nothing else;
the bus step of the same tick fills the data byte with the byte at `PC`. -/
def Obligations.DecodeStepFetchesAtThePC : Prop :=
  ∀ s : State, Ready s →
    clk s = { s with tx := ⟨s.pc, s.tx.data, .read⟩, pc := s.pc + 1, q := [.dispatch] } ∧
    (busStep (clk s)).tx = ⟨s.pc, peek s s.pc, .read⟩

/-- A master tick under the canonical clock (R341, R342, R344): every 12th runs `clk`, the bus step and the PPU step in that order, every
other 4th the PPU step alone. -/
def Obligations.MasterTickRunsTheUnitsInOrder : Prop :=
  ∀ s : State, s.div = canonicalDiv →
    (s.t % 12 = 0 → masterTick s = { ppuStep (busStep (clk s)) with t := s.t + 1 }) ∧
    (s.t % 12 ≠ 0 → s.t % 4 = 0 → masterTick s = { ppuStep s with t := s.t + 1 }) ∧
    (s.t % 4 ≠ 0 → masterTick s = { s with t := s.t + 1 })

/-- Twelve master ticks from a CPU tick are one CPU tick with three PPU ticks, or end at the halt it raises (R332, R344). -/
def Obligations.TwelveMasterTicksAreOneCpuTick : Prop :=
  ∀ s : State, s.div = canonicalDiv → s.t % 12 = 0 → s.halt = none → runTicks 12 s = cycle clk s

/-- `add_periodic` appends a positive period's registration and refuses any other (R340); callbacks fire in registration order when their
period divides the tick (R341). That a period 0, which `add_periodic` refuses, is read by Nat remainder is the model's choice (log 16). -/
def Obligations.RegistrationsFireInOrder : Prop :=
  (∀ (n : Nat) (c : Callback) (s : State), 0 < n → (addPeriodic n c s).div = s.div ++ [(n, c)]) ∧
  (∀ (n : Int) (c : Callback) (s : State), n ≤ 0 → addPeriodic n c s = s) ∧
  (∀ (t n : Nat) (c : Callback) (d : List (Nat × Callback)),
    firing t (d ++ [(n, c)]) = firing t d ++ if t % n = 0 then [c] else [])

/-- One PPU tick (R350), with the position in range and an admissible set dot: the position moves by one and wraps, `vbl` is set at the set
dot, cleared at the wrap, and kept otherwise; the sprite latches and the log stay (R353, R354). -/
def Obligations.PpuTickMovesAndLatches : Prop :=
  ∀ (cfg : Config) (p : Ppu), 0 < cfg.vblSetDot → cfg.vblSetDot < cfg.frame → p.pos < cfg.frame →
    ppuTick cfg p =
      if p.pos + 1 = cfg.frame then { p with pos := 0, vbl := false }
      else if p.pos + 1 = cfg.vblSetDot then { p with pos := cfg.vblSetDot, vbl := true }
      else { p with pos := p.pos + 1 }

/-- From power-up, after `j` PPU ticks with no status read the position is `j mod FRAME`, and `vbl` is set from the set dot to the
wrap (R352). -/
def Obligations.PpuPositionAfterTicksFromPowerUp : Prop :=
  ∀ (cfg : Config) (j : Nat), 0 < cfg.vblSetDot → cfg.vblSetDot < cfg.frame →
    (ppuTick cfg)^[j] ⟨0, false, false, false, []⟩ =
      ⟨j % cfg.frame, decide (cfg.vblSetDot ≤ j % cfg.frame), false, false, []⟩

/-- Nothing in the block sets or clears the sprite latches (R353), and the log only grows at its end: over every step and master tick.
That a host callback changes nothing in the block is the model's inference (log 11). -/
def Obligations.SpriteLatchesAreNeverChanged : Prop :=
  (∀ s t : State, step s = .next t → t.ppu.s0hit = s.ppu.s0hit ∧ t.ppu.sovf = s.ppu.sovf ∧ s.ppu.log <+: t.ppu.log) ∧
  (∀ s : State, (masterTick s).ppu.s0hit = s.ppu.s0hit ∧ (masterTick s).ppu.sovf = s.ppu.sovf ∧
    s.ppu.log <+: (masterTick s).ppu.log)
end

