-- ==== Sys2Proof/Laws/Memory.lean ====
section
/-! SUPPORT. The byte stores: reading after writing, the canonical form and the bound are kept, and the memory operations of the bus keep
them in the state. -/

namespace Sys2Proof.Machine

@[simp] theorem Memory.read_nil (o : Nat) : Memory.read [] o = Memory.fill := rfl

theorem Memory.read_cons (k : Nat) (b : Byte) (m : Memory) (o : Nat) :
    Memory.read ((k, b) :: m) o = if k = o then b else Memory.read m o := rfl

/-- A store whose offsets are all at least `lo` holds nothing below `lo`. -/
theorem Memory.read_of_lt {m : Memory} {lo o : Nat} (h : Memory.wfFrom lo m = true) (ho : o < lo) :
    Memory.read m o = Memory.fill := by
  induction m generalizing lo with
  | nil => rfl
  | cons c m ih =>
    obtain ⟨k, b⟩ := c
    simp only [Memory.wfFrom, Bool.and_eq_true, decide_eq_true_eq] at h
    have hk : k ≠ o := by omega
    simp [Memory.read_cons, hk, ih h.2 (by omega)]

theorem Memory.wfFrom_mono {m : Memory} {lo lo' : Nat} (h : Memory.wfFrom lo m = true) (hl : lo' ≤ lo) :
    Memory.wfFrom lo' m = true := by
  cases m with
  | nil => rfl
  | cons c m =>
    simp only [Memory.wfFrom, Bool.and_eq_true, decide_eq_true_eq] at h ⊢
    exact ⟨⟨by omega, h.1.2⟩, h.2⟩

theorem Memory.wfFrom_write {m : Memory} {lo o : Nat} {v : Byte} (h : Memory.wfFrom lo m = true) (hlo : lo ≤ o) :
    Memory.wfFrom lo (Memory.write m o v) = true := by
  induction m generalizing lo with
  | nil => by_cases hv : v = Memory.fill <;> simp [Memory.write, Memory.wfFrom, hv, hlo]
  | cons c m ih =>
    obtain ⟨k, b⟩ := c
    have h' := h
    simp only [Memory.wfFrom, Bool.and_eq_true, decide_eq_true_eq] at h'
    simp only [Memory.write]
    split
    · split
      · exact h
      · rename_i hok hv
        simp only [Memory.wfFrom, Bool.and_eq_true, decide_eq_true_eq, bne_iff_ne]
        exact ⟨⟨hlo, hv⟩, ⟨by omega, by simpa using h'.1.2⟩, h'.2⟩
    · split
      · rename_i hok
        split
        · exact Memory.wfFrom_mono h'.2 (by omega)
        · rename_i hv
          simp only [Memory.wfFrom, Bool.and_eq_true, decide_eq_true_eq, bne_iff_ne]
          exact ⟨⟨hlo, hv⟩, by rw [hok]; exact h'.2⟩
      · simp only [Memory.wfFrom, Bool.and_eq_true, decide_eq_true_eq]
        exact ⟨h'.1, ih h'.2 (by omega)⟩

/-- Storing a byte keeps the canonical form. -/
theorem Memory.wf_write {m : Memory} (h : m.wf = true) (o : Nat) (v : Byte) : (m.write o v).wf = true :=
  Memory.wfFrom_write h (Nat.zero_le o)

theorem Memory.below_cons (n k : Nat) (b : Byte) (m : Memory) :
    Memory.below n ((k, b) :: m) = (decide (k < n) && Memory.below n m) := rfl

/-- Storing a byte below a bound keeps the bound. -/
theorem Memory.below_write {m : Memory} {n o : Nat} (h : m.below n = true) (ho : o < n) (v : Byte) :
    (m.write o v).below n = true := by
  have ho' : decide (o < n) = true := by simpa using ho
  induction m with
  | nil =>
    simp only [Memory.write]
    split
    · rfl
    · rw [Memory.below_cons, ho']; rfl
  | cons c m ih =>
    obtain ⟨k, b⟩ := c
    have h' := h
    rw [Memory.below_cons, Bool.and_eq_true] at h'
    simp only [Memory.write]
    split
    · split
      · exact h
      · rw [Memory.below_cons, ho', h]; rfl
    · split
      · split
        · exact h'.2
        · rw [Memory.below_cons, ho', h'.2]; rfl
      · rw [Memory.below_cons, h'.1, ih h'.2]; rfl

theorem Memory.read_write_from {m : Memory} {lo : Nat} (h : Memory.wfFrom lo m = true) (o : Nat) (v : Byte) (k : Nat) :
    (Memory.write m o v).read k = if k = o then v else m.read k := by
  induction m generalizing lo with
  | nil =>
    by_cases hv : v = Memory.fill
    · simp [Memory.write, hv]
    · simp [Memory.write, hv, Memory.read_cons, eq_comm]
  | cons c m ih =>
    obtain ⟨a, b⟩ := c
    simp only [Memory.wfFrom, Bool.and_eq_true, decide_eq_true_eq] at h
    simp only [Memory.write]
    split
    · rename_i hlt
      split
      · rename_i hv
        split
        · rename_i hk
          subst hk
          rw [Memory.read_cons, if_neg (by omega), Memory.read_of_lt h.2 (by omega), hv]
        · rfl
      · simp [Memory.read_cons, eq_comm]
    · split
      · rename_i hne heq
        subst heq
        split
        · rename_i hv
          split
          · rename_i hk
            subst hk
            rw [Memory.read_of_lt h.2 (by omega), hv]
          · rename_i hk
            rw [Memory.read_cons, if_neg (by omega)]
        · simp only [Memory.read_cons, eq_comm]
          split <;> simp_all
      · rename_i h1 h2
        rw [Memory.read_cons, Memory.read_cons, ih h.2]
        by_cases hk : a = k
        · simp only [hk, if_true]
          rw [if_neg (by omega)]
        · simp [hk]

/-- A read after a write: the value at the offset written, and every other offset as before. -/
theorem Memory.read_write {m : Memory} (h : m.wf = true) (o : Nat) (v : Byte) (k : Nat) :
    (m.write o v).read k = if k = o then v else m.read k :=
  Memory.read_write_from h o v k

/-- A RAM offset the decoder gives is one of the 2048 (R62). -/
theorem decodeAddr_ram_lt {a : Addr} {o : Nat} (h : decodeAddr a = .ram o) : o < ramSize := by
  unfold decodeAddr at h
  split at h
  · simp only [BusTarget.ram.injEq] at h
    subst h
    have : (a &&& 0x07FF).toNat ≤ 0x07FF := by
      rw [BitVec.toNat_and]
      exact Nat.and_le_right
    show _ < 2048
    omega
  · split at h
    · cases h
    · split at h <;> cases h

/-- A bus write keeps RAM canonical and within its size. -/
theorem memWrite_keeps_ram {s : State} (a : Addr) (v : Byte) (h : s.ram.wf = true) (hb : s.ram.below ramSize = true) :
    (memWrite a v s).ram.wf = true ∧ (memWrite a v s).ram.below ramSize = true := by
  unfold memWrite
  cases hd : decodeAddr a with
  | ram o => exact ⟨Memory.wf_write h o v, Memory.below_write hb (decodeAddr_ram_lt hd) v⟩
  | ppu o => exact ⟨h, hb⟩
  | prg o => exact ⟨h, hb⟩
  | unmapped => exact ⟨h, hb⟩

/-- A bus read leaves RAM as it is. -/
theorem readEffect_ram (a : Addr) (s : State) : (readEffect a s).ram = s.ram := by
  unfold readEffect
  split <;> rfl

/-- Resolving the live transaction keeps RAM canonical and within its size. -/
theorem resolveTx_keeps_ram {s : State} (h : s.ram.wf = true) (hb : s.ram.below ramSize = true) :
    (resolveTx s).ram.wf = true ∧ (resolveTx s).ram.below ramSize = true := by
  unfold resolveTx
  cases s.tx.dir with
  | read => simpa [memRead, setTx, readEffect_ram] using ⟨h, hb⟩
  | write => exact memWrite_keeps_ram _ _ h hb

/-- A byte the host loads keeps RAM and program storage canonical. -/
theorem loadByte_keeps_wf {s : State} (a : Addr) (v : Byte) (h : s.ram.wf = true) (hp : s.cfg.prg.wf = true) :
    (loadByte a v s).ram.wf = true ∧ (loadByte a v s).cfg.prg.wf = true := by
  unfold loadByte
  cases decodeAddr a with
  | ram o => exact ⟨Memory.wf_write h o v, hp⟩
  | prg o => exact ⟨h, Memory.wf_write hp _ v⟩
  | ppu o => exact ⟨h, hp⟩
  | unmapped => exact ⟨h, hp⟩

/-- The reset state's RAM and program storage are canonical. -/
theorem reset_memory_wf : State.reset.ram.wf = true ∧ State.reset.cfg.prg.wf = true := ⟨rfl, rfl⟩

end Sys2Proof.Machine
end

