-- ==== Sys2Proof/Laws/State.lean ====
section
/-! SUPPORT. What each field update does to each field. -/

namespace Sys2Proof.Machine

@[simp] theorem setRegs_regs (v : Regs) (s : State) : (setRegs v s).regs = v := rfl
@[simp] theorem setRegs_pc (v : Regs) (s : State) : (setRegs v s).pc = s.pc := rfl
@[simp] theorem setRegs_q (v : Regs) (s : State) : (setRegs v s).q = s.q := rfl
@[simp] theorem setRegs_scratch (v : Regs) (s : State) : (setRegs v s).scratch = s.scratch := rfl
@[simp] theorem setRegs_halt (v : Regs) (s : State) : (setRegs v s).halt = s.halt := rfl
@[simp] theorem setRegs_tx (v : Regs) (s : State) : (setRegs v s).tx = s.tx := rfl
@[simp] theorem setRegs_ram (v : Regs) (s : State) : (setRegs v s).ram = s.ram := rfl
@[simp] theorem setRegs_ppu (v : Regs) (s : State) : (setRegs v s).ppu = s.ppu := rfl
@[simp] theorem setRegs_t (v : Regs) (s : State) : (setRegs v s).t = s.t := rfl
@[simp] theorem setRegs_div (v : Regs) (s : State) : (setRegs v s).div = s.div := rfl
@[simp] theorem setRegs_cfg (v : Regs) (s : State) : (setRegs v s).cfg = s.cfg := rfl

@[simp] theorem setPc_regs (v : Addr) (s : State) : (setPc v s).regs = s.regs := rfl
@[simp] theorem setPc_pc (v : Addr) (s : State) : (setPc v s).pc = v := rfl
@[simp] theorem setPc_q (v : Addr) (s : State) : (setPc v s).q = s.q := rfl
@[simp] theorem setPc_scratch (v : Addr) (s : State) : (setPc v s).scratch = s.scratch := rfl
@[simp] theorem setPc_halt (v : Addr) (s : State) : (setPc v s).halt = s.halt := rfl
@[simp] theorem setPc_tx (v : Addr) (s : State) : (setPc v s).tx = s.tx := rfl
@[simp] theorem setPc_ram (v : Addr) (s : State) : (setPc v s).ram = s.ram := rfl
@[simp] theorem setPc_ppu (v : Addr) (s : State) : (setPc v s).ppu = s.ppu := rfl
@[simp] theorem setPc_t (v : Addr) (s : State) : (setPc v s).t = s.t := rfl
@[simp] theorem setPc_div (v : Addr) (s : State) : (setPc v s).div = s.div := rfl
@[simp] theorem setPc_cfg (v : Addr) (s : State) : (setPc v s).cfg = s.cfg := rfl

@[simp] theorem setQ_regs (v : List MicroOp) (s : State) : (setQ v s).regs = s.regs := rfl
@[simp] theorem setQ_pc (v : List MicroOp) (s : State) : (setQ v s).pc = s.pc := rfl
@[simp] theorem setQ_q (v : List MicroOp) (s : State) : (setQ v s).q = v := rfl
@[simp] theorem setQ_scratch (v : List MicroOp) (s : State) : (setQ v s).scratch = s.scratch := rfl
@[simp] theorem setQ_halt (v : List MicroOp) (s : State) : (setQ v s).halt = s.halt := rfl
@[simp] theorem setQ_tx (v : List MicroOp) (s : State) : (setQ v s).tx = s.tx := rfl
@[simp] theorem setQ_ram (v : List MicroOp) (s : State) : (setQ v s).ram = s.ram := rfl
@[simp] theorem setQ_ppu (v : List MicroOp) (s : State) : (setQ v s).ppu = s.ppu := rfl
@[simp] theorem setQ_t (v : List MicroOp) (s : State) : (setQ v s).t = s.t := rfl
@[simp] theorem setQ_div (v : List MicroOp) (s : State) : (setQ v s).div = s.div := rfl
@[simp] theorem setQ_cfg (v : List MicroOp) (s : State) : (setQ v s).cfg = s.cfg := rfl

@[simp] theorem setScratch_regs (v : Scratch) (s : State) : (setScratch v s).regs = s.regs := rfl
@[simp] theorem setScratch_pc (v : Scratch) (s : State) : (setScratch v s).pc = s.pc := rfl
@[simp] theorem setScratch_q (v : Scratch) (s : State) : (setScratch v s).q = s.q := rfl
@[simp] theorem setScratch_scratch (v : Scratch) (s : State) : (setScratch v s).scratch = v := rfl
@[simp] theorem setScratch_halt (v : Scratch) (s : State) : (setScratch v s).halt = s.halt := rfl
@[simp] theorem setScratch_tx (v : Scratch) (s : State) : (setScratch v s).tx = s.tx := rfl
@[simp] theorem setScratch_ram (v : Scratch) (s : State) : (setScratch v s).ram = s.ram := rfl
@[simp] theorem setScratch_ppu (v : Scratch) (s : State) : (setScratch v s).ppu = s.ppu := rfl
@[simp] theorem setScratch_t (v : Scratch) (s : State) : (setScratch v s).t = s.t := rfl
@[simp] theorem setScratch_div (v : Scratch) (s : State) : (setScratch v s).div = s.div := rfl
@[simp] theorem setScratch_cfg (v : Scratch) (s : State) : (setScratch v s).cfg = s.cfg := rfl

@[simp] theorem setHalt_regs (v : Option HaltRecord) (s : State) : (setHalt v s).regs = s.regs := rfl
@[simp] theorem setHalt_pc (v : Option HaltRecord) (s : State) : (setHalt v s).pc = s.pc := rfl
@[simp] theorem setHalt_q (v : Option HaltRecord) (s : State) : (setHalt v s).q = s.q := rfl
@[simp] theorem setHalt_scratch (v : Option HaltRecord) (s : State) : (setHalt v s).scratch = s.scratch := rfl
@[simp] theorem setHalt_halt (v : Option HaltRecord) (s : State) : (setHalt v s).halt = v := rfl
@[simp] theorem setHalt_tx (v : Option HaltRecord) (s : State) : (setHalt v s).tx = s.tx := rfl
@[simp] theorem setHalt_ram (v : Option HaltRecord) (s : State) : (setHalt v s).ram = s.ram := rfl
@[simp] theorem setHalt_ppu (v : Option HaltRecord) (s : State) : (setHalt v s).ppu = s.ppu := rfl
@[simp] theorem setHalt_t (v : Option HaltRecord) (s : State) : (setHalt v s).t = s.t := rfl
@[simp] theorem setHalt_div (v : Option HaltRecord) (s : State) : (setHalt v s).div = s.div := rfl
@[simp] theorem setHalt_cfg (v : Option HaltRecord) (s : State) : (setHalt v s).cfg = s.cfg := rfl

@[simp] theorem setTx_regs (v : Tx) (s : State) : (setTx v s).regs = s.regs := rfl
@[simp] theorem setTx_pc (v : Tx) (s : State) : (setTx v s).pc = s.pc := rfl
@[simp] theorem setTx_q (v : Tx) (s : State) : (setTx v s).q = s.q := rfl
@[simp] theorem setTx_scratch (v : Tx) (s : State) : (setTx v s).scratch = s.scratch := rfl
@[simp] theorem setTx_halt (v : Tx) (s : State) : (setTx v s).halt = s.halt := rfl
@[simp] theorem setTx_tx (v : Tx) (s : State) : (setTx v s).tx = v := rfl
@[simp] theorem setTx_ram (v : Tx) (s : State) : (setTx v s).ram = s.ram := rfl
@[simp] theorem setTx_ppu (v : Tx) (s : State) : (setTx v s).ppu = s.ppu := rfl
@[simp] theorem setTx_t (v : Tx) (s : State) : (setTx v s).t = s.t := rfl
@[simp] theorem setTx_div (v : Tx) (s : State) : (setTx v s).div = s.div := rfl
@[simp] theorem setTx_cfg (v : Tx) (s : State) : (setTx v s).cfg = s.cfg := rfl

@[simp] theorem setRam_regs (v : Memory) (s : State) : (setRam v s).regs = s.regs := rfl
@[simp] theorem setRam_pc (v : Memory) (s : State) : (setRam v s).pc = s.pc := rfl
@[simp] theorem setRam_q (v : Memory) (s : State) : (setRam v s).q = s.q := rfl
@[simp] theorem setRam_scratch (v : Memory) (s : State) : (setRam v s).scratch = s.scratch := rfl
@[simp] theorem setRam_halt (v : Memory) (s : State) : (setRam v s).halt = s.halt := rfl
@[simp] theorem setRam_tx (v : Memory) (s : State) : (setRam v s).tx = s.tx := rfl
@[simp] theorem setRam_ram (v : Memory) (s : State) : (setRam v s).ram = v := rfl
@[simp] theorem setRam_ppu (v : Memory) (s : State) : (setRam v s).ppu = s.ppu := rfl
@[simp] theorem setRam_t (v : Memory) (s : State) : (setRam v s).t = s.t := rfl
@[simp] theorem setRam_div (v : Memory) (s : State) : (setRam v s).div = s.div := rfl
@[simp] theorem setRam_cfg (v : Memory) (s : State) : (setRam v s).cfg = s.cfg := rfl

@[simp] theorem setPpu_regs (v : Ppu) (s : State) : (setPpu v s).regs = s.regs := rfl
@[simp] theorem setPpu_pc (v : Ppu) (s : State) : (setPpu v s).pc = s.pc := rfl
@[simp] theorem setPpu_q (v : Ppu) (s : State) : (setPpu v s).q = s.q := rfl
@[simp] theorem setPpu_scratch (v : Ppu) (s : State) : (setPpu v s).scratch = s.scratch := rfl
@[simp] theorem setPpu_halt (v : Ppu) (s : State) : (setPpu v s).halt = s.halt := rfl
@[simp] theorem setPpu_tx (v : Ppu) (s : State) : (setPpu v s).tx = s.tx := rfl
@[simp] theorem setPpu_ram (v : Ppu) (s : State) : (setPpu v s).ram = s.ram := rfl
@[simp] theorem setPpu_ppu (v : Ppu) (s : State) : (setPpu v s).ppu = v := rfl
@[simp] theorem setPpu_t (v : Ppu) (s : State) : (setPpu v s).t = s.t := rfl
@[simp] theorem setPpu_div (v : Ppu) (s : State) : (setPpu v s).div = s.div := rfl
@[simp] theorem setPpu_cfg (v : Ppu) (s : State) : (setPpu v s).cfg = s.cfg := rfl

@[simp] theorem setT_regs (v : Nat) (s : State) : (setT v s).regs = s.regs := rfl
@[simp] theorem setT_pc (v : Nat) (s : State) : (setT v s).pc = s.pc := rfl
@[simp] theorem setT_q (v : Nat) (s : State) : (setT v s).q = s.q := rfl
@[simp] theorem setT_scratch (v : Nat) (s : State) : (setT v s).scratch = s.scratch := rfl
@[simp] theorem setT_halt (v : Nat) (s : State) : (setT v s).halt = s.halt := rfl
@[simp] theorem setT_tx (v : Nat) (s : State) : (setT v s).tx = s.tx := rfl
@[simp] theorem setT_ram (v : Nat) (s : State) : (setT v s).ram = s.ram := rfl
@[simp] theorem setT_ppu (v : Nat) (s : State) : (setT v s).ppu = s.ppu := rfl
@[simp] theorem setT_t (v : Nat) (s : State) : (setT v s).t = v := rfl
@[simp] theorem setT_div (v : Nat) (s : State) : (setT v s).div = s.div := rfl
@[simp] theorem setT_cfg (v : Nat) (s : State) : (setT v s).cfg = s.cfg := rfl

@[simp] theorem setDiv_regs (v : List (Nat × Callback)) (s : State) : (setDiv v s).regs = s.regs := rfl
@[simp] theorem setDiv_pc (v : List (Nat × Callback)) (s : State) : (setDiv v s).pc = s.pc := rfl
@[simp] theorem setDiv_q (v : List (Nat × Callback)) (s : State) : (setDiv v s).q = s.q := rfl
@[simp] theorem setDiv_scratch (v : List (Nat × Callback)) (s : State) : (setDiv v s).scratch = s.scratch := rfl
@[simp] theorem setDiv_halt (v : List (Nat × Callback)) (s : State) : (setDiv v s).halt = s.halt := rfl
@[simp] theorem setDiv_tx (v : List (Nat × Callback)) (s : State) : (setDiv v s).tx = s.tx := rfl
@[simp] theorem setDiv_ram (v : List (Nat × Callback)) (s : State) : (setDiv v s).ram = s.ram := rfl
@[simp] theorem setDiv_ppu (v : List (Nat × Callback)) (s : State) : (setDiv v s).ppu = s.ppu := rfl
@[simp] theorem setDiv_t (v : List (Nat × Callback)) (s : State) : (setDiv v s).t = s.t := rfl
@[simp] theorem setDiv_div (v : List (Nat × Callback)) (s : State) : (setDiv v s).div = v := rfl
@[simp] theorem setDiv_cfg (v : List (Nat × Callback)) (s : State) : (setDiv v s).cfg = s.cfg := rfl

@[simp] theorem setCfg_regs (v : Config) (s : State) : (setCfg v s).regs = s.regs := rfl
@[simp] theorem setCfg_pc (v : Config) (s : State) : (setCfg v s).pc = s.pc := rfl
@[simp] theorem setCfg_q (v : Config) (s : State) : (setCfg v s).q = s.q := rfl
@[simp] theorem setCfg_scratch (v : Config) (s : State) : (setCfg v s).scratch = s.scratch := rfl
@[simp] theorem setCfg_halt (v : Config) (s : State) : (setCfg v s).halt = s.halt := rfl
@[simp] theorem setCfg_tx (v : Config) (s : State) : (setCfg v s).tx = s.tx := rfl
@[simp] theorem setCfg_ram (v : Config) (s : State) : (setCfg v s).ram = s.ram := rfl
@[simp] theorem setCfg_ppu (v : Config) (s : State) : (setCfg v s).ppu = s.ppu := rfl
@[simp] theorem setCfg_t (v : Config) (s : State) : (setCfg v s).t = s.t := rfl
@[simp] theorem setCfg_div (v : Config) (s : State) : (setCfg v s).div = s.div := rfl
@[simp] theorem setCfg_cfg (v : Config) (s : State) : (setCfg v s).cfg = v := rfl

end Sys2Proof.Machine
end

