-- ==== Sys2Proof/Laws/Bus.lean ====
section
/-! SUPPORT. What the bus step, the PPU step and the halt can do: one lemma for each says which fields they leave alone, and one says what
a bus step that reads or writes leaves. -/

namespace Sys2Proof.Machine

/-! ### The halt -/

/-- A halt is taken once: the record is kept if there is one, else written; no other field changes (R330, R334). -/
theorem raiseHalt_eq (r : HaltReason) (s : State) :
    raiseHalt r s = setHalt (some (s.halt.getD (haltRecord r s))) s := by
  unfold raiseHalt
  split
  · rename_i h
    cases s
    simp_all [setHalt]
  · rename_i h
    simp [h]

/-! ### Reads and writes -/

theorem decodeAddr_ppu_of_isStatus {a : Addr} (h : isStatus a = true) : decodeAddr a = .ppu 2 := by
  simpa [isStatus] using h

/-- The side effect of a bus read is on the PPU alone (R78). -/
theorem readEffect_eq (a : Addr) (s : State) : readEffect a s = setPpu (ppuAfterRead a s.ppu) s := by
  unfold readEffect ppuAfterRead isStatus
  cases h : decodeAddr a with
  | ppu o => simp [ppuReadEffect]
  | ram o => simp [setPpu]
  | prg o => simp [setPpu]
  | unmapped => simp [setPpu]

/-- A read depends on RAM, the parameters and, at the status register alone, on the PPU. -/
theorem peek_congr {s t : State} {a : Addr} (hr : t.ram = s.ram) (hc : t.cfg = s.cfg) (ha : isStatus a = false) :
    peek t a = peek s a := by
  unfold peek
  cases h : decodeAddr a with
  | ppu o =>
    have ho : o ≠ 2 := by
      intro ho
      simp [isStatus, h, ho] at ha
    simp only [ppuByte, if_neg ho]
  | ram o => simp [hr]
  | prg o => simp [hc]
  | unmapped => rfl

/-- A read of the status register is the status byte. -/
theorem peek_status {s : State} {a : Addr} (ha : isStatus a = true) : peek s a = statusByte s.ppu := by
  simp [peek, decodeAddr_ppu_of_isStatus ha, ppuByte]

/-! ### The bus step -/

/-- A bus step that reads and halts on nothing: the data byte arrives and the device's side effect happens (R73). -/
theorem busStep_read {s : State} {a : Addr} {d : Byte} (hx : s.tx = ⟨a, d, .read⟩)
    (hc : s.cfg.unmappedPolicy = .zero ∨ isMapped a = true) :
    busStep s = setPpu (ppuAfterRead a s.ppu) (setTx ⟨a, peek s a, .read⟩ s) := by
  have hn : ¬(isMapped a = false ∧ s.cfg.unmappedPolicy = .fault) := by
    rcases hc with hc | hc <;> simp [hc]
  simp only [busStep, resolveTx, hx, memRead, hn, if_false, readEffect_eq]
  rfl

/-- A bus step that writes and halts on nothing (R73). -/
theorem busStep_write {s : State} {a : Addr} {d : Byte} (hx : s.tx = ⟨a, d, .write⟩)
    (hc : s.cfg.unmappedPolicy = .zero ∨ isMapped a = true) : busStep s = memWrite a d s := by
  have hn : ¬(isMapped a = false ∧ s.cfg.unmappedPolicy = .fault) := by
    rcases hc with hc | hc <;> simp [hc]
  simp only [busStep, resolveTx, hx, hn, if_false]

/-- A bus step changes the transaction's data, RAM, the PPU and the halt record at most. -/
theorem busStep_frame (s : State) :
    ∃ d m p h, busStep s = { s with tx := { s.tx with data := d }, ram := m, ppu := p, halt := h } := by
  have hw : ∃ d m p, resolveTx s = { s with tx := { s.tx with data := d }, ram := m, ppu := p } := by
    unfold resolveTx
    cases s.tx.dir with
    | read => exact ⟨peek s s.tx.addr, s.ram, ppuAfterRead s.tx.addr s.ppu, by simp [memRead, readEffect_eq, setPpu, setTx]⟩
    | write =>
      simp only [memWrite]
      cases decodeAddr s.tx.addr with
      | ram o => exact ⟨s.tx.data, _, s.ppu, rfl⟩
      | ppu o => exact ⟨s.tx.data, s.ram, _, rfl⟩
      | prg o => exact ⟨s.tx.data, s.ram, s.ppu, rfl⟩
      | unmapped => exact ⟨s.tx.data, s.ram, s.ppu, rfl⟩
  obtain ⟨d, m, p, hw⟩ := hw
  unfold busStep
  simp only [raiseHalt_eq, hw]
  split
  · exact ⟨d, m, p, _, rfl⟩
  · exact ⟨d, m, p, s.halt, rfl⟩

@[simp] theorem busStep_regs (s : State) : (busStep s).regs = s.regs := by
  obtain ⟨d, m, p, h, e⟩ := busStep_frame s; rw [e]
@[simp] theorem busStep_pc (s : State) : (busStep s).pc = s.pc := by
  obtain ⟨d, m, p, h, e⟩ := busStep_frame s; rw [e]
@[simp] theorem busStep_q (s : State) : (busStep s).q = s.q := by
  obtain ⟨d, m, p, h, e⟩ := busStep_frame s; rw [e]
@[simp] theorem busStep_scratch (s : State) : (busStep s).scratch = s.scratch := by
  obtain ⟨d, m, p, h, e⟩ := busStep_frame s; rw [e]
@[simp] theorem busStep_t (s : State) : (busStep s).t = s.t := by
  obtain ⟨d, m, p, h, e⟩ := busStep_frame s; rw [e]
@[simp] theorem busStep_div (s : State) : (busStep s).div = s.div := by
  obtain ⟨d, m, p, h, e⟩ := busStep_frame s; rw [e]
@[simp] theorem busStep_cfg (s : State) : (busStep s).cfg = s.cfg := by
  obtain ⟨d, m, p, h, e⟩ := busStep_frame s; rw [e]
@[simp] theorem busStep_tx_addr (s : State) : (busStep s).tx.addr = s.tx.addr := by
  obtain ⟨d, m, p, h, e⟩ := busStep_frame s; rw [e]
@[simp] theorem busStep_tx_dir (s : State) : (busStep s).tx.dir = s.tx.dir := by
  obtain ⟨d, m, p, h, e⟩ := busStep_frame s; rw [e]

/-! ### The PPU step -/

@[simp] theorem ppuTick_log (cfg : Config) (p : Ppu) : (ppuTick cfg p).log = p.log := rfl
@[simp] theorem ppuTick_s0hit (cfg : Config) (p : Ppu) : (ppuTick cfg p).s0hit = p.s0hit := rfl
@[simp] theorem ppuTick_sovf (cfg : Config) (p : Ppu) : (ppuTick cfg p).sovf = p.sovf := rfl
@[simp] theorem ppuTick_pos (cfg : Config) (p : Ppu) : (ppuTick cfg p).pos = (p.pos + 1) % cfg.frame := rfl

/-- Three PPU steps on a state are three PPU ticks of its timing unit. -/
theorem ppuStep_three (s : State) : ppuStep (ppuStep (ppuStep s)) = setPpu (ppuThree s.cfg s.ppu) s := rfl

end Sys2Proof.Machine
end

