-- ==== Sys2Proof/Laws/Cycle.lean ====
section
/-! SUPPORT. One CPU tick: what it can do, and how ticks that read chain into the state after an instruction. -/

namespace Sys2Proof.Machine

/-- A halted CPU gets no tick. -/
theorem cycle_halted {act : State → State} {s : State} {r : HaltRecord} (h : s.halt = some r) : cycle act s = s := by
  simp [cycle, h]

/-- A tick of a running CPU is the act, the bus step and the time after it. -/
theorem cycle_running {act : State → State} {s : State} (h : s.halt = none) :
    cycle act s = finishTick (busStep (act s)) := by
  simp [cycle, h]

/-- The time after a bus step changes the PPU and the clock only. -/
theorem finishTick_frame (s : State) : ∃ p n, finishTick s = { s with ppu := p, t := n } := by
  unfold finishTick
  split <;> exact ⟨_, _, rfl⟩

@[simp] theorem finishTick_regs (s : State) : (finishTick s).regs = s.regs := by
  obtain ⟨p, n, e⟩ := finishTick_frame s; rw [e]
@[simp] theorem finishTick_pc (s : State) : (finishTick s).pc = s.pc := by
  obtain ⟨p, n, e⟩ := finishTick_frame s; rw [e]
@[simp] theorem finishTick_q (s : State) : (finishTick s).q = s.q := by
  obtain ⟨p, n, e⟩ := finishTick_frame s; rw [e]
@[simp] theorem finishTick_scratch (s : State) : (finishTick s).scratch = s.scratch := by
  obtain ⟨p, n, e⟩ := finishTick_frame s; rw [e]
@[simp] theorem finishTick_halt (s : State) : (finishTick s).halt = s.halt := by
  obtain ⟨p, n, e⟩ := finishTick_frame s; rw [e]
@[simp] theorem finishTick_tx (s : State) : (finishTick s).tx = s.tx := by
  obtain ⟨p, n, e⟩ := finishTick_frame s; rw [e]
@[simp] theorem finishTick_ram (s : State) : (finishTick s).ram = s.ram := by
  obtain ⟨p, n, e⟩ := finishTick_frame s; rw [e]
@[simp] theorem finishTick_div (s : State) : (finishTick s).div = s.div := by
  obtain ⟨p, n, e⟩ := finishTick_frame s; rw [e]
@[simp] theorem finishTick_cfg (s : State) : (finishTick s).cfg = s.cfg := by
  obtain ⟨p, n, e⟩ := finishTick_frame s; rw [e]

/-- The time after a bus step that left the CPU running: three PPU ticks and 12 master ticks (R344). -/
theorem finishTick_running {s : State} (h : s.halt = none) :
    finishTick s = { s with ppu := ppuThree s.cfg s.ppu, t := s.t + 12 } := by
  simp [finishTick, h, ppuStep_three, setPpu, setT, cpuPeriod]

/-- The time after a bus step that left the CPU halted: the PPU step of the same master tick, and no further tick (R332). -/
theorem finishTick_stopped {s : State} {r : HaltRecord} (h : s.halt = some r) :
    finishTick s = { s with ppu := ppuTick s.cfg s.ppu, t := s.t + 1 } := by
  simp [finishTick, h, ppuStep, setPpu, setT]

/-- A tick whose bus step reads `a` and halts on nothing: what the act does, then the byte, the side effect, three PPU ticks and 12
master ticks (R73, R344). -/
theorem cycle_read {act : State → State} {s : State} {a : Addr} {d : Byte} (h : s.halt = none) (ha : (act s).halt = none)
    (hx : (act s).tx = ⟨a, d, .read⟩) (hc : (act s).cfg.unmappedPolicy = .zero ∨ isMapped a = true) :
    cycle act s = { act s with
      tx := ⟨a, peek (act s) a, .read⟩
      ppu := ppuThree (act s).cfg (ppuAfterRead a (act s).ppu)
      t := (act s).t + 12 } := by
  rw [cycle_running h, busStep_read hx hc, finishTick_running (by exact ha)]
  rfl

/-- A tick whose bus step writes `v` to `a` and halts on nothing. -/
theorem cycle_write {act : State → State} {s : State} {a : Addr} {v : Byte} (h : s.halt = none) (ha : (act s).halt = none)
    (hx : (act s).tx = ⟨a, v, .write⟩) (hc : (act s).cfg.unmappedPolicy = .zero ∨ isMapped a = true) :
    cycle act s = { memWrite a v (act s) with
      ppu := ppuThree (act s).cfg (memWrite a v (act s)).ppu
      t := (act s).t + 12 } := by
  have hm : ∀ u : State, (memWrite a v u).halt = u.halt ∧ (memWrite a v u).cfg = u.cfg ∧ (memWrite a v u).t = u.t := by
    intro u
    unfold memWrite
    split <;> exact ⟨rfl, rfl, rfl⟩
  rw [cycle_running h, busStep_write hx hc, finishTick_running ((hm _).1.trans ha), (hm _).2.1, (hm _).2.2]
  simp only [(hm _).2.1]

/-! ### Chaining ticks that read -/

/-- The state inside an instruction that has only read so far: `ranReading` with a queue. -/
def midway (s : State) (r : Regs) (pc : Addr) (c : Scratch) (q : List MicroOp) (reads : List Addr) (last : Addr) : State :=
  { ranReading s r pc c reads last with q := q }

theorem midway_end {s : State} (hq : s.q = []) (r : Regs) (pc : Addr) (c : Scratch) (reads : List Addr) (last : Addr) :
    midway s r pc c [] reads last = ranReading s r pc c reads last := by
  simp [midway, ranReading, ← hq]

theorem ppuRun_append (cfg : Config) (as : List Addr) (a : Addr) (p : Ppu) :
    ppuRun cfg (as ++ [a]) p = ppuThree cfg (ppuAfterRead a (ppuRun cfg as p)) := by
  simp [ppuRun]

/-- The byte read at `a` after some reading ticks is `busByte`. -/
theorem peek_midway {s t : State} (hr : t.ram = s.ram) (hc : t.cfg = s.cfg) {reads : List Addr}
    (hp : t.ppu = ppuRun s.cfg reads s.ppu) (a : Addr) : peek t a = busByte s reads a := by
  unfold busByte
  split
  · rename_i h
    rw [peek_status h, hp]
  · rename_i h
    exact peek_congr hr hc (by simpa using h)

/-- The first tick of an instruction: the decode step (R133). -/
theorem cycle_decodeStep {s : State} (hs : Ready s) (hc : s.cfg.unmappedPolicy = .zero ∨ isMapped s.pc = true) :
    cycle decodeStep s = midway s s.regs (s.pc + 1) s.scratch [.dispatch] [] s.pc := by
  rw [cycle_read (a := s.pc) (d := s.tx.data) hs.1 hs.1 rfl hc]
  have hp : peek (decodeStep s) s.pc = busByte s [] s.pc := peek_midway (s := s) (reads := []) rfl rfl rfl _
  rw [hp]
  simp [midway, ranReading, decodeStep, enqueue, fetchOperand, txRead, setPc, setQ, setTx, hs.2, ppuRun]

/-- A later tick of an instruction that reads: if the act leaves the state inside the instruction but for its own effects and sets a read of `a`,
the tick extends the chain by `a`. -/
theorem cycle_midway {s : State} (h : s.halt = none) {act : State → State} {r r' : Regs} {pc pc' : Addr} {c c' : Scratch}
    {q q' : List MicroOp} {reads : List Addr} {last a : Addr} {d : Byte}
    (hact : act (midway s r pc c q reads last) = { midway s r' pc' c' q' reads last with tx := ⟨a, d, .read⟩ })
    (hc : s.cfg.unmappedPolicy = .zero ∨ isMapped a = true) :
    cycle act (midway s r pc c q reads last) = midway s r' pc' c' q' (reads ++ [last]) a := by
  have hh : (midway s r pc c q reads last).halt = none := h
  rw [cycle_read (a := a) (d := d) hh (by rw [hact]; exact h) (by rw [hact]) (by rw [hact]; exact hc)]
  have hp : peek (act (midway s r pc c q reads last)) a = busByte s (reads ++ [last]) a := by
    exact peek_midway (s := s) (t := act _) (reads := reads ++ [last]) (by rw [hact]; rfl) (by rw [hact]; rfl) (by rw [hact]; rfl) _
  rw [hp, hact]
  simp only [midway, ranReading, ppuRun_append, List.length_append, List.length_cons, List.length_nil]
  congr 1

end Sys2Proof.Machine
end

