-- ==== Sys2Proof/Laws/Exec.lean ====
section
/-! SUPPORT. The one inversion lemma of `exec`: every instruction runs one of seven schedules, with the operation, mode and bytes of its
table entry. Claims over all instructions split on it instead of on the constructors. -/

namespace Sys2Proof.Machine

/-- A class with a memory operand. -/
def OperandClass (c : OpClass) : Prop := (∃ o, c = .read o) ∨ ∃ o, c = .store o

/-- Which schedule an instruction runs (R138), with its entry and its bytes. -/
inductive Runs (i : Instr) : Prop where
  | implied (op : Byte) (o : ImpliedOp) (m : Mode) (run : ∀ s, exec i s = .next (runImplied op o m s))
      (entry : i.entry = ⟨.implied o, m⟩) (bytes : encode i = [op])
  | immediate (op : Byte) (o : ReadOp) (m : Byte) (run : ∀ s, exec i s = .next (runImmediate op o m s))
      (entry : i.entry = ⟨.read o, .immediate⟩) (bytes : encode i = [op, m])
  | zeroPage (op : Byte) (c : OpClass) (z : Byte) (cls : OperandClass c) (run : ∀ s, exec i s = .next (runZeroPage op c z s))
      (entry : i.entry = ⟨c, .zeroPage⟩) (bytes : encode i = [op, z])
  | absolute (op : Byte) (c : OpClass) (idx : Index) (a : Addr) (cls : OperandClass c)
      (run : ∀ s, exec i s = .next (runAbsolute op c idx a s)) (entry : i.entry = ⟨c, .absolute idx⟩)
      (bytes : encode i = [op, loByte a, hiByte a])
  | branch (op : Byte) (o : BranchOp) (off : Byte) (run : ∀ s, exec i s = .next (runBranch op o off s))
      (entry : i.entry = ⟨.branch o, .relative⟩) (bytes : encode i = [op, off])
  | jump (op : Byte) (a : Addr) (run : ∀ s, exec i s = .next (runJump op a s))
      (entry : i.entry = ⟨.jump, .absolute .noIndex⟩) (bytes : encode i = [op, loByte a, hiByte a])
  | undefined (op : Byte) (run : ∀ s, exec i s = .next (runUndefined op s)) (entry : i.entry = ⟨.undef, .noMode⟩)
      (bytes : encode i = [op])

theorem exec_runs (i : Instr) : Runs i := by
  cases i with
  | ldaImm m => exact .immediate 0xA9 .lda m (fun _ => rfl) rfl rfl
  | ldaZp z => exact .zeroPage 0xA5 _ z (.inl ⟨_, rfl⟩) (fun _ => rfl) rfl rfl
  | ldaAbs a => exact .absolute 0xAD _ .noIndex a (.inl ⟨_, rfl⟩) (fun _ => rfl) rfl rfl
  | ldaAbsX a => exact .absolute 0xBD _ .x a (.inl ⟨_, rfl⟩) (fun _ => rfl) rfl rfl
  | ldaAbsY a => exact .absolute 0xB9 _ .y a (.inl ⟨_, rfl⟩) (fun _ => rfl) rfl rfl
  | ldxImm m => exact .immediate 0xA2 .ldx m (fun _ => rfl) rfl rfl
  | ldxZp z => exact .zeroPage 0xA6 _ z (.inl ⟨_, rfl⟩) (fun _ => rfl) rfl rfl
  | ldxAbs a => exact .absolute 0xAE _ .noIndex a (.inl ⟨_, rfl⟩) (fun _ => rfl) rfl rfl
  | ldxAbsY a => exact .absolute 0xBE _ .y a (.inl ⟨_, rfl⟩) (fun _ => rfl) rfl rfl
  | ldyImm m => exact .immediate 0xA0 .ldy m (fun _ => rfl) rfl rfl
  | ldyZp z => exact .zeroPage 0xA4 _ z (.inl ⟨_, rfl⟩) (fun _ => rfl) rfl rfl
  | ldyAbs a => exact .absolute 0xAC _ .noIndex a (.inl ⟨_, rfl⟩) (fun _ => rfl) rfl rfl
  | ldyAbsX a => exact .absolute 0xBC _ .x a (.inl ⟨_, rfl⟩) (fun _ => rfl) rfl rfl
  | staZp z => exact .zeroPage 0x85 _ z (.inr ⟨_, rfl⟩) (fun _ => rfl) rfl rfl
  | staAbs a => exact .absolute 0x8D _ .noIndex a (.inr ⟨_, rfl⟩) (fun _ => rfl) rfl rfl
  | staAbsX a => exact .absolute 0x9D _ .x a (.inr ⟨_, rfl⟩) (fun _ => rfl) rfl rfl
  | staAbsY a => exact .absolute 0x99 _ .y a (.inr ⟨_, rfl⟩) (fun _ => rfl) rfl rfl
  | stxZp z => exact .zeroPage 0x86 _ z (.inr ⟨_, rfl⟩) (fun _ => rfl) rfl rfl
  | stxAbs a => exact .absolute 0x8E _ .noIndex a (.inr ⟨_, rfl⟩) (fun _ => rfl) rfl rfl
  | styZp z => exact .zeroPage 0x84 _ z (.inr ⟨_, rfl⟩) (fun _ => rfl) rfl rfl
  | styAbs a => exact .absolute 0x8C _ .noIndex a (.inr ⟨_, rfl⟩) (fun _ => rfl) rfl rfl
  | tax => exact .implied 0xAA .tax .implied (fun _ => rfl) rfl rfl
  | tay => exact .implied 0xA8 .tay .implied (fun _ => rfl) rfl rfl
  | txa => exact .implied 0x8A .txa .implied (fun _ => rfl) rfl rfl
  | tya => exact .implied 0x98 .tya .implied (fun _ => rfl) rfl rfl
  | tsx => exact .implied 0xBA .tsx .implied (fun _ => rfl) rfl rfl
  | txs => exact .implied 0x9A .txs .implied (fun _ => rfl) rfl rfl
  | adcImm m => exact .immediate 0x69 .adc m (fun _ => rfl) rfl rfl
  | adcZp z => exact .zeroPage 0x65 _ z (.inl ⟨_, rfl⟩) (fun _ => rfl) rfl rfl
  | adcAbs a => exact .absolute 0x6D _ .noIndex a (.inl ⟨_, rfl⟩) (fun _ => rfl) rfl rfl
  | adcAbsX a => exact .absolute 0x7D _ .x a (.inl ⟨_, rfl⟩) (fun _ => rfl) rfl rfl
  | adcAbsY a => exact .absolute 0x79 _ .y a (.inl ⟨_, rfl⟩) (fun _ => rfl) rfl rfl
  | sbcImm m => exact .immediate 0xE9 .sbc m (fun _ => rfl) rfl rfl
  | sbcZp z => exact .zeroPage 0xE5 _ z (.inl ⟨_, rfl⟩) (fun _ => rfl) rfl rfl
  | sbcAbs a => exact .absolute 0xED _ .noIndex a (.inl ⟨_, rfl⟩) (fun _ => rfl) rfl rfl
  | sbcAbsX a => exact .absolute 0xFD _ .x a (.inl ⟨_, rfl⟩) (fun _ => rfl) rfl rfl
  | sbcAbsY a => exact .absolute 0xF9 _ .y a (.inl ⟨_, rfl⟩) (fun _ => rfl) rfl rfl
  | andImm m => exact .immediate 0x29 .and m (fun _ => rfl) rfl rfl
  | andZp z => exact .zeroPage 0x25 _ z (.inl ⟨_, rfl⟩) (fun _ => rfl) rfl rfl
  | andAbs a => exact .absolute 0x2D _ .noIndex a (.inl ⟨_, rfl⟩) (fun _ => rfl) rfl rfl
  | andAbsX a => exact .absolute 0x3D _ .x a (.inl ⟨_, rfl⟩) (fun _ => rfl) rfl rfl
  | andAbsY a => exact .absolute 0x39 _ .y a (.inl ⟨_, rfl⟩) (fun _ => rfl) rfl rfl
  | oraImm m => exact .immediate 0x09 .ora m (fun _ => rfl) rfl rfl
  | oraZp z => exact .zeroPage 0x05 _ z (.inl ⟨_, rfl⟩) (fun _ => rfl) rfl rfl
  | oraAbs a => exact .absolute 0x0D _ .noIndex a (.inl ⟨_, rfl⟩) (fun _ => rfl) rfl rfl
  | oraAbsX a => exact .absolute 0x1D _ .x a (.inl ⟨_, rfl⟩) (fun _ => rfl) rfl rfl
  | oraAbsY a => exact .absolute 0x19 _ .y a (.inl ⟨_, rfl⟩) (fun _ => rfl) rfl rfl
  | eorImm m => exact .immediate 0x49 .eor m (fun _ => rfl) rfl rfl
  | eorZp z => exact .zeroPage 0x45 _ z (.inl ⟨_, rfl⟩) (fun _ => rfl) rfl rfl
  | eorAbs a => exact .absolute 0x4D _ .noIndex a (.inl ⟨_, rfl⟩) (fun _ => rfl) rfl rfl
  | eorAbsX a => exact .absolute 0x5D _ .x a (.inl ⟨_, rfl⟩) (fun _ => rfl) rfl rfl
  | eorAbsY a => exact .absolute 0x59 _ .y a (.inl ⟨_, rfl⟩) (fun _ => rfl) rfl rfl
  | cmpImm m => exact .immediate 0xC9 .cmp m (fun _ => rfl) rfl rfl
  | cmpZp z => exact .zeroPage 0xC5 _ z (.inl ⟨_, rfl⟩) (fun _ => rfl) rfl rfl
  | cmpAbs a => exact .absolute 0xCD _ .noIndex a (.inl ⟨_, rfl⟩) (fun _ => rfl) rfl rfl
  | cmpAbsX a => exact .absolute 0xDD _ .x a (.inl ⟨_, rfl⟩) (fun _ => rfl) rfl rfl
  | cmpAbsY a => exact .absolute 0xD9 _ .y a (.inl ⟨_, rfl⟩) (fun _ => rfl) rfl rfl
  | cpxImm m => exact .immediate 0xE0 .cpx m (fun _ => rfl) rfl rfl
  | cpxZp z => exact .zeroPage 0xE4 _ z (.inl ⟨_, rfl⟩) (fun _ => rfl) rfl rfl
  | cpxAbs a => exact .absolute 0xEC _ .noIndex a (.inl ⟨_, rfl⟩) (fun _ => rfl) rfl rfl
  | cpyImm m => exact .immediate 0xC0 .cpy m (fun _ => rfl) rfl rfl
  | cpyZp z => exact .zeroPage 0xC4 _ z (.inl ⟨_, rfl⟩) (fun _ => rfl) rfl rfl
  | cpyAbs a => exact .absolute 0xCC _ .noIndex a (.inl ⟨_, rfl⟩) (fun _ => rfl) rfl rfl
  | bitZp z => exact .zeroPage 0x24 _ z (.inl ⟨_, rfl⟩) (fun _ => rfl) rfl rfl
  | bitAbs a => exact .absolute 0x2C _ .noIndex a (.inl ⟨_, rfl⟩) (fun _ => rfl) rfl rfl
  | inx => exact .implied 0xE8 .inx .implied (fun _ => rfl) rfl rfl
  | iny => exact .implied 0xC8 .iny .implied (fun _ => rfl) rfl rfl
  | dex => exact .implied 0xCA .dex .implied (fun _ => rfl) rfl rfl
  | dey => exact .implied 0x88 .dey .implied (fun _ => rfl) rfl rfl
  | asl => exact .implied 0x0A .asl .accumulator (fun _ => rfl) rfl rfl
  | lsr => exact .implied 0x4A .lsr .accumulator (fun _ => rfl) rfl rfl
  | rol => exact .implied 0x2A .rol .accumulator (fun _ => rfl) rfl rfl
  | ror => exact .implied 0x6A .ror .accumulator (fun _ => rfl) rfl rfl
  | bpl off => exact .branch 0x10 .bpl off (fun _ => rfl) rfl rfl
  | bmi off => exact .branch 0x30 .bmi off (fun _ => rfl) rfl rfl
  | bvc off => exact .branch 0x50 .bvc off (fun _ => rfl) rfl rfl
  | bvs off => exact .branch 0x70 .bvs off (fun _ => rfl) rfl rfl
  | bcc off => exact .branch 0x90 .bcc off (fun _ => rfl) rfl rfl
  | bcs off => exact .branch 0xB0 .bcs off (fun _ => rfl) rfl rfl
  | bne off => exact .branch 0xD0 .bne off (fun _ => rfl) rfl rfl
  | beq off => exact .branch 0xF0 .beq off (fun _ => rfl) rfl rfl
  | jmp a => exact .jump 0x4C a (fun _ => rfl) rfl rfl
  | clc => exact .implied 0x18 .clc .implied (fun _ => rfl) rfl rfl
  | sec => exact .implied 0x38 .sec .implied (fun _ => rfl) rfl rfl
  | cli => exact .implied 0x58 .cli .implied (fun _ => rfl) rfl rfl
  | sei => exact .implied 0x78 .sei .implied (fun _ => rfl) rfl rfl
  | clv => exact .implied 0xB8 .clv .implied (fun _ => rfl) rfl rfl
  | cld => exact .implied 0xD8 .cld .implied (fun _ => rfl) rfl rfl
  | sed => exact .implied 0xF8 .sed .implied (fun _ => rfl) rfl rfl
  | nop => exact .implied 0xEA .nop .implied (fun _ => rfl) rfl rfl
  | undefined op => exact .undefined op (fun _ => rfl) rfl rfl

end Sys2Proof.Machine
end

