-- ==== Sys2Proof/Laws/PerInstr.lean ====
section
/-! SUPPORT. Per-instruction facts about instructions as syntax: one lemma per constructor. -/

theorem Sys2Proof.Mode.one_le_length (m : Sys2Proof.Mode) : 1 ≤ m.length := by cases m <;> simp [Sys2Proof.Mode.length]

theorem Sys2Proof.Mode.length_le_three (m : Sys2Proof.Mode) : m.length ≤ 3 := by cases m <;> simp [Sys2Proof.Mode.length]

/-- The bytes of an instruction: their number is its length (R101), between one and three, and the entry of the table at its
first byte, the opcode, has the instruction's own addressing mode and class (R100, R104) unless the term is ill formed. -/
def Sys2Proof.Laws.Encoding.Statement (i : Sys2Proof.Instr) : Prop :=
  (Sys2Proof.encode i).length = i.length ∧ 1 ≤ i.length ∧ i.length ≤ 3 ∧
    (i.wf = true → i.entry.cls ≠ .undef → Sys2Proof.tableEntry ((Sys2Proof.encode i).getD 0 0) = i.entry)

theorem Sys2Proof.Laws.Encoding.ldaImm (m : Sys2Proof.Byte) : Sys2Proof.Laws.Encoding.Statement (.ldaImm m) :=
  ⟨rfl, Sys2Proof.Mode.one_le_length _, Sys2Proof.Mode.length_le_three _, fun _ _ => rfl⟩
theorem Sys2Proof.Laws.Encoding.ldaZp (z : Sys2Proof.Byte) : Sys2Proof.Laws.Encoding.Statement (.ldaZp z) :=
  ⟨rfl, Sys2Proof.Mode.one_le_length _, Sys2Proof.Mode.length_le_three _, fun _ _ => rfl⟩
theorem Sys2Proof.Laws.Encoding.ldaAbs (a : Sys2Proof.Addr) : Sys2Proof.Laws.Encoding.Statement (.ldaAbs a) :=
  ⟨rfl, Sys2Proof.Mode.one_le_length _, Sys2Proof.Mode.length_le_three _, fun _ _ => rfl⟩
theorem Sys2Proof.Laws.Encoding.ldaAbsX (a : Sys2Proof.Addr) : Sys2Proof.Laws.Encoding.Statement (.ldaAbsX a) :=
  ⟨rfl, Sys2Proof.Mode.one_le_length _, Sys2Proof.Mode.length_le_three _, fun _ _ => rfl⟩
theorem Sys2Proof.Laws.Encoding.ldaAbsY (a : Sys2Proof.Addr) : Sys2Proof.Laws.Encoding.Statement (.ldaAbsY a) :=
  ⟨rfl, Sys2Proof.Mode.one_le_length _, Sys2Proof.Mode.length_le_three _, fun _ _ => rfl⟩
theorem Sys2Proof.Laws.Encoding.ldxImm (m : Sys2Proof.Byte) : Sys2Proof.Laws.Encoding.Statement (.ldxImm m) :=
  ⟨rfl, Sys2Proof.Mode.one_le_length _, Sys2Proof.Mode.length_le_three _, fun _ _ => rfl⟩
theorem Sys2Proof.Laws.Encoding.ldxZp (z : Sys2Proof.Byte) : Sys2Proof.Laws.Encoding.Statement (.ldxZp z) :=
  ⟨rfl, Sys2Proof.Mode.one_le_length _, Sys2Proof.Mode.length_le_three _, fun _ _ => rfl⟩
theorem Sys2Proof.Laws.Encoding.ldxAbs (a : Sys2Proof.Addr) : Sys2Proof.Laws.Encoding.Statement (.ldxAbs a) :=
  ⟨rfl, Sys2Proof.Mode.one_le_length _, Sys2Proof.Mode.length_le_three _, fun _ _ => rfl⟩
theorem Sys2Proof.Laws.Encoding.ldxAbsY (a : Sys2Proof.Addr) : Sys2Proof.Laws.Encoding.Statement (.ldxAbsY a) :=
  ⟨rfl, Sys2Proof.Mode.one_le_length _, Sys2Proof.Mode.length_le_three _, fun _ _ => rfl⟩
theorem Sys2Proof.Laws.Encoding.ldyImm (m : Sys2Proof.Byte) : Sys2Proof.Laws.Encoding.Statement (.ldyImm m) :=
  ⟨rfl, Sys2Proof.Mode.one_le_length _, Sys2Proof.Mode.length_le_three _, fun _ _ => rfl⟩
theorem Sys2Proof.Laws.Encoding.ldyZp (z : Sys2Proof.Byte) : Sys2Proof.Laws.Encoding.Statement (.ldyZp z) :=
  ⟨rfl, Sys2Proof.Mode.one_le_length _, Sys2Proof.Mode.length_le_three _, fun _ _ => rfl⟩
theorem Sys2Proof.Laws.Encoding.ldyAbs (a : Sys2Proof.Addr) : Sys2Proof.Laws.Encoding.Statement (.ldyAbs a) :=
  ⟨rfl, Sys2Proof.Mode.one_le_length _, Sys2Proof.Mode.length_le_three _, fun _ _ => rfl⟩
theorem Sys2Proof.Laws.Encoding.ldyAbsX (a : Sys2Proof.Addr) : Sys2Proof.Laws.Encoding.Statement (.ldyAbsX a) :=
  ⟨rfl, Sys2Proof.Mode.one_le_length _, Sys2Proof.Mode.length_le_three _, fun _ _ => rfl⟩
theorem Sys2Proof.Laws.Encoding.staZp (z : Sys2Proof.Byte) : Sys2Proof.Laws.Encoding.Statement (.staZp z) :=
  ⟨rfl, Sys2Proof.Mode.one_le_length _, Sys2Proof.Mode.length_le_three _, fun _ _ => rfl⟩
theorem Sys2Proof.Laws.Encoding.staAbs (a : Sys2Proof.Addr) : Sys2Proof.Laws.Encoding.Statement (.staAbs a) :=
  ⟨rfl, Sys2Proof.Mode.one_le_length _, Sys2Proof.Mode.length_le_three _, fun _ _ => rfl⟩
theorem Sys2Proof.Laws.Encoding.staAbsX (a : Sys2Proof.Addr) : Sys2Proof.Laws.Encoding.Statement (.staAbsX a) :=
  ⟨rfl, Sys2Proof.Mode.one_le_length _, Sys2Proof.Mode.length_le_three _, fun _ _ => rfl⟩
theorem Sys2Proof.Laws.Encoding.staAbsY (a : Sys2Proof.Addr) : Sys2Proof.Laws.Encoding.Statement (.staAbsY a) :=
  ⟨rfl, Sys2Proof.Mode.one_le_length _, Sys2Proof.Mode.length_le_three _, fun _ _ => rfl⟩
theorem Sys2Proof.Laws.Encoding.stxZp (z : Sys2Proof.Byte) : Sys2Proof.Laws.Encoding.Statement (.stxZp z) :=
  ⟨rfl, Sys2Proof.Mode.one_le_length _, Sys2Proof.Mode.length_le_three _, fun _ _ => rfl⟩
theorem Sys2Proof.Laws.Encoding.stxAbs (a : Sys2Proof.Addr) : Sys2Proof.Laws.Encoding.Statement (.stxAbs a) :=
  ⟨rfl, Sys2Proof.Mode.one_le_length _, Sys2Proof.Mode.length_le_three _, fun _ _ => rfl⟩
theorem Sys2Proof.Laws.Encoding.styZp (z : Sys2Proof.Byte) : Sys2Proof.Laws.Encoding.Statement (.styZp z) :=
  ⟨rfl, Sys2Proof.Mode.one_le_length _, Sys2Proof.Mode.length_le_three _, fun _ _ => rfl⟩
theorem Sys2Proof.Laws.Encoding.styAbs (a : Sys2Proof.Addr) : Sys2Proof.Laws.Encoding.Statement (.styAbs a) :=
  ⟨rfl, Sys2Proof.Mode.one_le_length _, Sys2Proof.Mode.length_le_three _, fun _ _ => rfl⟩
theorem Sys2Proof.Laws.Encoding.tax : Sys2Proof.Laws.Encoding.Statement (.tax) :=
  ⟨rfl, Sys2Proof.Mode.one_le_length _, Sys2Proof.Mode.length_le_three _, fun _ _ => rfl⟩
theorem Sys2Proof.Laws.Encoding.tay : Sys2Proof.Laws.Encoding.Statement (.tay) :=
  ⟨rfl, Sys2Proof.Mode.one_le_length _, Sys2Proof.Mode.length_le_three _, fun _ _ => rfl⟩
theorem Sys2Proof.Laws.Encoding.txa : Sys2Proof.Laws.Encoding.Statement (.txa) :=
  ⟨rfl, Sys2Proof.Mode.one_le_length _, Sys2Proof.Mode.length_le_three _, fun _ _ => rfl⟩
theorem Sys2Proof.Laws.Encoding.tya : Sys2Proof.Laws.Encoding.Statement (.tya) :=
  ⟨rfl, Sys2Proof.Mode.one_le_length _, Sys2Proof.Mode.length_le_three _, fun _ _ => rfl⟩
theorem Sys2Proof.Laws.Encoding.tsx : Sys2Proof.Laws.Encoding.Statement (.tsx) :=
  ⟨rfl, Sys2Proof.Mode.one_le_length _, Sys2Proof.Mode.length_le_three _, fun _ _ => rfl⟩
theorem Sys2Proof.Laws.Encoding.txs : Sys2Proof.Laws.Encoding.Statement (.txs) :=
  ⟨rfl, Sys2Proof.Mode.one_le_length _, Sys2Proof.Mode.length_le_three _, fun _ _ => rfl⟩
theorem Sys2Proof.Laws.Encoding.adcImm (m : Sys2Proof.Byte) : Sys2Proof.Laws.Encoding.Statement (.adcImm m) :=
  ⟨rfl, Sys2Proof.Mode.one_le_length _, Sys2Proof.Mode.length_le_three _, fun _ _ => rfl⟩
theorem Sys2Proof.Laws.Encoding.adcZp (z : Sys2Proof.Byte) : Sys2Proof.Laws.Encoding.Statement (.adcZp z) :=
  ⟨rfl, Sys2Proof.Mode.one_le_length _, Sys2Proof.Mode.length_le_three _, fun _ _ => rfl⟩
theorem Sys2Proof.Laws.Encoding.adcAbs (a : Sys2Proof.Addr) : Sys2Proof.Laws.Encoding.Statement (.adcAbs a) :=
  ⟨rfl, Sys2Proof.Mode.one_le_length _, Sys2Proof.Mode.length_le_three _, fun _ _ => rfl⟩
theorem Sys2Proof.Laws.Encoding.adcAbsX (a : Sys2Proof.Addr) : Sys2Proof.Laws.Encoding.Statement (.adcAbsX a) :=
  ⟨rfl, Sys2Proof.Mode.one_le_length _, Sys2Proof.Mode.length_le_three _, fun _ _ => rfl⟩
theorem Sys2Proof.Laws.Encoding.adcAbsY (a : Sys2Proof.Addr) : Sys2Proof.Laws.Encoding.Statement (.adcAbsY a) :=
  ⟨rfl, Sys2Proof.Mode.one_le_length _, Sys2Proof.Mode.length_le_three _, fun _ _ => rfl⟩
theorem Sys2Proof.Laws.Encoding.sbcImm (m : Sys2Proof.Byte) : Sys2Proof.Laws.Encoding.Statement (.sbcImm m) :=
  ⟨rfl, Sys2Proof.Mode.one_le_length _, Sys2Proof.Mode.length_le_three _, fun _ _ => rfl⟩
theorem Sys2Proof.Laws.Encoding.sbcZp (z : Sys2Proof.Byte) : Sys2Proof.Laws.Encoding.Statement (.sbcZp z) :=
  ⟨rfl, Sys2Proof.Mode.one_le_length _, Sys2Proof.Mode.length_le_three _, fun _ _ => rfl⟩
theorem Sys2Proof.Laws.Encoding.sbcAbs (a : Sys2Proof.Addr) : Sys2Proof.Laws.Encoding.Statement (.sbcAbs a) :=
  ⟨rfl, Sys2Proof.Mode.one_le_length _, Sys2Proof.Mode.length_le_three _, fun _ _ => rfl⟩
theorem Sys2Proof.Laws.Encoding.sbcAbsX (a : Sys2Proof.Addr) : Sys2Proof.Laws.Encoding.Statement (.sbcAbsX a) :=
  ⟨rfl, Sys2Proof.Mode.one_le_length _, Sys2Proof.Mode.length_le_three _, fun _ _ => rfl⟩
theorem Sys2Proof.Laws.Encoding.sbcAbsY (a : Sys2Proof.Addr) : Sys2Proof.Laws.Encoding.Statement (.sbcAbsY a) :=
  ⟨rfl, Sys2Proof.Mode.one_le_length _, Sys2Proof.Mode.length_le_three _, fun _ _ => rfl⟩
theorem Sys2Proof.Laws.Encoding.andImm (m : Sys2Proof.Byte) : Sys2Proof.Laws.Encoding.Statement (.andImm m) :=
  ⟨rfl, Sys2Proof.Mode.one_le_length _, Sys2Proof.Mode.length_le_three _, fun _ _ => rfl⟩
theorem Sys2Proof.Laws.Encoding.andZp (z : Sys2Proof.Byte) : Sys2Proof.Laws.Encoding.Statement (.andZp z) :=
  ⟨rfl, Sys2Proof.Mode.one_le_length _, Sys2Proof.Mode.length_le_three _, fun _ _ => rfl⟩
theorem Sys2Proof.Laws.Encoding.andAbs (a : Sys2Proof.Addr) : Sys2Proof.Laws.Encoding.Statement (.andAbs a) :=
  ⟨rfl, Sys2Proof.Mode.one_le_length _, Sys2Proof.Mode.length_le_three _, fun _ _ => rfl⟩
theorem Sys2Proof.Laws.Encoding.andAbsX (a : Sys2Proof.Addr) : Sys2Proof.Laws.Encoding.Statement (.andAbsX a) :=
  ⟨rfl, Sys2Proof.Mode.one_le_length _, Sys2Proof.Mode.length_le_three _, fun _ _ => rfl⟩
theorem Sys2Proof.Laws.Encoding.andAbsY (a : Sys2Proof.Addr) : Sys2Proof.Laws.Encoding.Statement (.andAbsY a) :=
  ⟨rfl, Sys2Proof.Mode.one_le_length _, Sys2Proof.Mode.length_le_three _, fun _ _ => rfl⟩
theorem Sys2Proof.Laws.Encoding.oraImm (m : Sys2Proof.Byte) : Sys2Proof.Laws.Encoding.Statement (.oraImm m) :=
  ⟨rfl, Sys2Proof.Mode.one_le_length _, Sys2Proof.Mode.length_le_three _, fun _ _ => rfl⟩
theorem Sys2Proof.Laws.Encoding.oraZp (z : Sys2Proof.Byte) : Sys2Proof.Laws.Encoding.Statement (.oraZp z) :=
  ⟨rfl, Sys2Proof.Mode.one_le_length _, Sys2Proof.Mode.length_le_three _, fun _ _ => rfl⟩
theorem Sys2Proof.Laws.Encoding.oraAbs (a : Sys2Proof.Addr) : Sys2Proof.Laws.Encoding.Statement (.oraAbs a) :=
  ⟨rfl, Sys2Proof.Mode.one_le_length _, Sys2Proof.Mode.length_le_three _, fun _ _ => rfl⟩
theorem Sys2Proof.Laws.Encoding.oraAbsX (a : Sys2Proof.Addr) : Sys2Proof.Laws.Encoding.Statement (.oraAbsX a) :=
  ⟨rfl, Sys2Proof.Mode.one_le_length _, Sys2Proof.Mode.length_le_three _, fun _ _ => rfl⟩
theorem Sys2Proof.Laws.Encoding.oraAbsY (a : Sys2Proof.Addr) : Sys2Proof.Laws.Encoding.Statement (.oraAbsY a) :=
  ⟨rfl, Sys2Proof.Mode.one_le_length _, Sys2Proof.Mode.length_le_three _, fun _ _ => rfl⟩
theorem Sys2Proof.Laws.Encoding.eorImm (m : Sys2Proof.Byte) : Sys2Proof.Laws.Encoding.Statement (.eorImm m) :=
  ⟨rfl, Sys2Proof.Mode.one_le_length _, Sys2Proof.Mode.length_le_three _, fun _ _ => rfl⟩
theorem Sys2Proof.Laws.Encoding.eorZp (z : Sys2Proof.Byte) : Sys2Proof.Laws.Encoding.Statement (.eorZp z) :=
  ⟨rfl, Sys2Proof.Mode.one_le_length _, Sys2Proof.Mode.length_le_three _, fun _ _ => rfl⟩
theorem Sys2Proof.Laws.Encoding.eorAbs (a : Sys2Proof.Addr) : Sys2Proof.Laws.Encoding.Statement (.eorAbs a) :=
  ⟨rfl, Sys2Proof.Mode.one_le_length _, Sys2Proof.Mode.length_le_three _, fun _ _ => rfl⟩
theorem Sys2Proof.Laws.Encoding.eorAbsX (a : Sys2Proof.Addr) : Sys2Proof.Laws.Encoding.Statement (.eorAbsX a) :=
  ⟨rfl, Sys2Proof.Mode.one_le_length _, Sys2Proof.Mode.length_le_three _, fun _ _ => rfl⟩
theorem Sys2Proof.Laws.Encoding.eorAbsY (a : Sys2Proof.Addr) : Sys2Proof.Laws.Encoding.Statement (.eorAbsY a) :=
  ⟨rfl, Sys2Proof.Mode.one_le_length _, Sys2Proof.Mode.length_le_three _, fun _ _ => rfl⟩
theorem Sys2Proof.Laws.Encoding.cmpImm (m : Sys2Proof.Byte) : Sys2Proof.Laws.Encoding.Statement (.cmpImm m) :=
  ⟨rfl, Sys2Proof.Mode.one_le_length _, Sys2Proof.Mode.length_le_three _, fun _ _ => rfl⟩
theorem Sys2Proof.Laws.Encoding.cmpZp (z : Sys2Proof.Byte) : Sys2Proof.Laws.Encoding.Statement (.cmpZp z) :=
  ⟨rfl, Sys2Proof.Mode.one_le_length _, Sys2Proof.Mode.length_le_three _, fun _ _ => rfl⟩
theorem Sys2Proof.Laws.Encoding.cmpAbs (a : Sys2Proof.Addr) : Sys2Proof.Laws.Encoding.Statement (.cmpAbs a) :=
  ⟨rfl, Sys2Proof.Mode.one_le_length _, Sys2Proof.Mode.length_le_three _, fun _ _ => rfl⟩
theorem Sys2Proof.Laws.Encoding.cmpAbsX (a : Sys2Proof.Addr) : Sys2Proof.Laws.Encoding.Statement (.cmpAbsX a) :=
  ⟨rfl, Sys2Proof.Mode.one_le_length _, Sys2Proof.Mode.length_le_three _, fun _ _ => rfl⟩
theorem Sys2Proof.Laws.Encoding.cmpAbsY (a : Sys2Proof.Addr) : Sys2Proof.Laws.Encoding.Statement (.cmpAbsY a) :=
  ⟨rfl, Sys2Proof.Mode.one_le_length _, Sys2Proof.Mode.length_le_three _, fun _ _ => rfl⟩
theorem Sys2Proof.Laws.Encoding.cpxImm (m : Sys2Proof.Byte) : Sys2Proof.Laws.Encoding.Statement (.cpxImm m) :=
  ⟨rfl, Sys2Proof.Mode.one_le_length _, Sys2Proof.Mode.length_le_three _, fun _ _ => rfl⟩
theorem Sys2Proof.Laws.Encoding.cpxZp (z : Sys2Proof.Byte) : Sys2Proof.Laws.Encoding.Statement (.cpxZp z) :=
  ⟨rfl, Sys2Proof.Mode.one_le_length _, Sys2Proof.Mode.length_le_three _, fun _ _ => rfl⟩
theorem Sys2Proof.Laws.Encoding.cpxAbs (a : Sys2Proof.Addr) : Sys2Proof.Laws.Encoding.Statement (.cpxAbs a) :=
  ⟨rfl, Sys2Proof.Mode.one_le_length _, Sys2Proof.Mode.length_le_three _, fun _ _ => rfl⟩
theorem Sys2Proof.Laws.Encoding.cpyImm (m : Sys2Proof.Byte) : Sys2Proof.Laws.Encoding.Statement (.cpyImm m) :=
  ⟨rfl, Sys2Proof.Mode.one_le_length _, Sys2Proof.Mode.length_le_three _, fun _ _ => rfl⟩
theorem Sys2Proof.Laws.Encoding.cpyZp (z : Sys2Proof.Byte) : Sys2Proof.Laws.Encoding.Statement (.cpyZp z) :=
  ⟨rfl, Sys2Proof.Mode.one_le_length _, Sys2Proof.Mode.length_le_three _, fun _ _ => rfl⟩
theorem Sys2Proof.Laws.Encoding.cpyAbs (a : Sys2Proof.Addr) : Sys2Proof.Laws.Encoding.Statement (.cpyAbs a) :=
  ⟨rfl, Sys2Proof.Mode.one_le_length _, Sys2Proof.Mode.length_le_three _, fun _ _ => rfl⟩
theorem Sys2Proof.Laws.Encoding.bitZp (z : Sys2Proof.Byte) : Sys2Proof.Laws.Encoding.Statement (.bitZp z) :=
  ⟨rfl, Sys2Proof.Mode.one_le_length _, Sys2Proof.Mode.length_le_three _, fun _ _ => rfl⟩
theorem Sys2Proof.Laws.Encoding.bitAbs (a : Sys2Proof.Addr) : Sys2Proof.Laws.Encoding.Statement (.bitAbs a) :=
  ⟨rfl, Sys2Proof.Mode.one_le_length _, Sys2Proof.Mode.length_le_three _, fun _ _ => rfl⟩
theorem Sys2Proof.Laws.Encoding.inx : Sys2Proof.Laws.Encoding.Statement (.inx) :=
  ⟨rfl, Sys2Proof.Mode.one_le_length _, Sys2Proof.Mode.length_le_three _, fun _ _ => rfl⟩
theorem Sys2Proof.Laws.Encoding.iny : Sys2Proof.Laws.Encoding.Statement (.iny) :=
  ⟨rfl, Sys2Proof.Mode.one_le_length _, Sys2Proof.Mode.length_le_three _, fun _ _ => rfl⟩
theorem Sys2Proof.Laws.Encoding.dex : Sys2Proof.Laws.Encoding.Statement (.dex) :=
  ⟨rfl, Sys2Proof.Mode.one_le_length _, Sys2Proof.Mode.length_le_three _, fun _ _ => rfl⟩
theorem Sys2Proof.Laws.Encoding.dey : Sys2Proof.Laws.Encoding.Statement (.dey) :=
  ⟨rfl, Sys2Proof.Mode.one_le_length _, Sys2Proof.Mode.length_le_three _, fun _ _ => rfl⟩
theorem Sys2Proof.Laws.Encoding.asl : Sys2Proof.Laws.Encoding.Statement (.asl) :=
  ⟨rfl, Sys2Proof.Mode.one_le_length _, Sys2Proof.Mode.length_le_three _, fun _ _ => rfl⟩
theorem Sys2Proof.Laws.Encoding.lsr : Sys2Proof.Laws.Encoding.Statement (.lsr) :=
  ⟨rfl, Sys2Proof.Mode.one_le_length _, Sys2Proof.Mode.length_le_three _, fun _ _ => rfl⟩
theorem Sys2Proof.Laws.Encoding.rol : Sys2Proof.Laws.Encoding.Statement (.rol) :=
  ⟨rfl, Sys2Proof.Mode.one_le_length _, Sys2Proof.Mode.length_le_three _, fun _ _ => rfl⟩
theorem Sys2Proof.Laws.Encoding.ror : Sys2Proof.Laws.Encoding.Statement (.ror) :=
  ⟨rfl, Sys2Proof.Mode.one_le_length _, Sys2Proof.Mode.length_le_three _, fun _ _ => rfl⟩
theorem Sys2Proof.Laws.Encoding.bpl (off : Sys2Proof.Byte) : Sys2Proof.Laws.Encoding.Statement (.bpl off) :=
  ⟨rfl, Sys2Proof.Mode.one_le_length _, Sys2Proof.Mode.length_le_three _, fun _ _ => rfl⟩
theorem Sys2Proof.Laws.Encoding.bmi (off : Sys2Proof.Byte) : Sys2Proof.Laws.Encoding.Statement (.bmi off) :=
  ⟨rfl, Sys2Proof.Mode.one_le_length _, Sys2Proof.Mode.length_le_three _, fun _ _ => rfl⟩
theorem Sys2Proof.Laws.Encoding.bvc (off : Sys2Proof.Byte) : Sys2Proof.Laws.Encoding.Statement (.bvc off) :=
  ⟨rfl, Sys2Proof.Mode.one_le_length _, Sys2Proof.Mode.length_le_three _, fun _ _ => rfl⟩
theorem Sys2Proof.Laws.Encoding.bvs (off : Sys2Proof.Byte) : Sys2Proof.Laws.Encoding.Statement (.bvs off) :=
  ⟨rfl, Sys2Proof.Mode.one_le_length _, Sys2Proof.Mode.length_le_three _, fun _ _ => rfl⟩
theorem Sys2Proof.Laws.Encoding.bcc (off : Sys2Proof.Byte) : Sys2Proof.Laws.Encoding.Statement (.bcc off) :=
  ⟨rfl, Sys2Proof.Mode.one_le_length _, Sys2Proof.Mode.length_le_three _, fun _ _ => rfl⟩
theorem Sys2Proof.Laws.Encoding.bcs (off : Sys2Proof.Byte) : Sys2Proof.Laws.Encoding.Statement (.bcs off) :=
  ⟨rfl, Sys2Proof.Mode.one_le_length _, Sys2Proof.Mode.length_le_three _, fun _ _ => rfl⟩
theorem Sys2Proof.Laws.Encoding.bne (off : Sys2Proof.Byte) : Sys2Proof.Laws.Encoding.Statement (.bne off) :=
  ⟨rfl, Sys2Proof.Mode.one_le_length _, Sys2Proof.Mode.length_le_three _, fun _ _ => rfl⟩
theorem Sys2Proof.Laws.Encoding.beq (off : Sys2Proof.Byte) : Sys2Proof.Laws.Encoding.Statement (.beq off) :=
  ⟨rfl, Sys2Proof.Mode.one_le_length _, Sys2Proof.Mode.length_le_three _, fun _ _ => rfl⟩
theorem Sys2Proof.Laws.Encoding.jmp (a : Sys2Proof.Addr) : Sys2Proof.Laws.Encoding.Statement (.jmp a) :=
  ⟨rfl, Sys2Proof.Mode.one_le_length _, Sys2Proof.Mode.length_le_three _, fun _ _ => rfl⟩
theorem Sys2Proof.Laws.Encoding.clc : Sys2Proof.Laws.Encoding.Statement (.clc) :=
  ⟨rfl, Sys2Proof.Mode.one_le_length _, Sys2Proof.Mode.length_le_three _, fun _ _ => rfl⟩
theorem Sys2Proof.Laws.Encoding.sec : Sys2Proof.Laws.Encoding.Statement (.sec) :=
  ⟨rfl, Sys2Proof.Mode.one_le_length _, Sys2Proof.Mode.length_le_three _, fun _ _ => rfl⟩
theorem Sys2Proof.Laws.Encoding.cli : Sys2Proof.Laws.Encoding.Statement (.cli) :=
  ⟨rfl, Sys2Proof.Mode.one_le_length _, Sys2Proof.Mode.length_le_three _, fun _ _ => rfl⟩
theorem Sys2Proof.Laws.Encoding.sei : Sys2Proof.Laws.Encoding.Statement (.sei) :=
  ⟨rfl, Sys2Proof.Mode.one_le_length _, Sys2Proof.Mode.length_le_three _, fun _ _ => rfl⟩
theorem Sys2Proof.Laws.Encoding.clv : Sys2Proof.Laws.Encoding.Statement (.clv) :=
  ⟨rfl, Sys2Proof.Mode.one_le_length _, Sys2Proof.Mode.length_le_three _, fun _ _ => rfl⟩
theorem Sys2Proof.Laws.Encoding.cld : Sys2Proof.Laws.Encoding.Statement (.cld) :=
  ⟨rfl, Sys2Proof.Mode.one_le_length _, Sys2Proof.Mode.length_le_three _, fun _ _ => rfl⟩
theorem Sys2Proof.Laws.Encoding.sed : Sys2Proof.Laws.Encoding.Statement (.sed) :=
  ⟨rfl, Sys2Proof.Mode.one_le_length _, Sys2Proof.Mode.length_le_three _, fun _ _ => rfl⟩
theorem Sys2Proof.Laws.Encoding.nop : Sys2Proof.Laws.Encoding.Statement (.nop) :=
  ⟨rfl, Sys2Proof.Mode.one_le_length _, Sys2Proof.Mode.length_le_three _, fun _ _ => rfl⟩
theorem Sys2Proof.Laws.Encoding.undefined (op : Sys2Proof.Byte) : Sys2Proof.Laws.Encoding.Statement (.undefined op) :=
  ⟨rfl, Sys2Proof.Mode.one_le_length _, Sys2Proof.Mode.length_le_three _, fun _ h => absurd rfl h⟩
end

