-- ==== Sys2Proof/Laws/Words.lean ====
section
/-! SUPPORT. The two bytes of a 16-bit value (R6) and what putting them together gives back. -/

namespace Sys2Proof

@[simp] theorem concat_hiByte_loByte (a : Addr) : concat (hiByte a) (loByte a) = a := by
  apply BitVec.eq_of_getLsbD_eq
  intro i hi
  simp only [concat, hiByte, loByte, BitVec.getLsbD_append, BitVec.getLsbD_extractLsb']
  by_cases h : i < 8
  · simp [h]
  · simp only [h, decide_false]
    rw [show 8 + (i - 8) = i by omega]
    simp [show i - 8 < 8 by omega]

@[simp] theorem hiByte_concat (h l : Byte) : hiByte (concat h l) = h := by
  apply BitVec.eq_of_getLsbD_eq
  intro i hi
  simp only [hiByte, concat, BitVec.getLsbD_extractLsb', BitVec.getLsbD_append]
  simp [hi]

@[simp] theorem loByte_concat (h l : Byte) : loByte (concat h l) = l := by
  apply BitVec.eq_of_getLsbD_eq
  intro i hi
  simp only [loByte, concat, BitVec.getLsbD_extractLsb', BitVec.getLsbD_append]
  simp [hi]

/-- A zero-page address lies in the first 256 bytes, so it is RAM (R60, R84). -/
theorem toNat_zext16_lt (z : Byte) : (zext16 z).toNat < 256 := by
  simp only [zext16, BitVec.toNat_setWidth]
  omega

end Sys2Proof
end

