-- ==== Sys2Proof/Tests/Slice0.lean ====
section
/-! SUPPORT. Tests: the WellFormed smoke test, words written out from the opcode map (30_encoding.md rule R104), one-step tests whose
expected values are the vectors of 95_test_vectors.md (named in each comment), and a witness for every statement with hypotheses. -/

namespace Sys2Proof.Tests

open Sys2Proof.Machine

/-! ### Helpers -/

/-- No flag set. -/
def noFlags : Flags := ⟨false, false, false, false, false, false, false⟩

/-- Registers from `A`, `X`, `Y`, `SP`, no flag set. -/
def regsOf (a x y sp : Byte) : Regs := ⟨a, x, y, sp, noFlags⟩

/-- The same with the carry set. -/
def withC (r : Regs) : Regs := { r with p := { r.p with c := true } }

/-- Bytes laid from an offset on. -/
def lay (m : Memory) : Nat → List Byte → Memory
  | _, [] => m
  | o, b :: bs => lay (m.write o b) (o + 1) bs

/-- The block of 95_test_vectors.md section 2 at the boundary of an instruction at 0x8000, after the reset sequence. -/
def ready (code : List Byte) (r : Regs) : State :=
  { State.construct { Config.default with prg := lay [] 0 code } Draws.zero with
    regs := r, q := [], pc := 0x8000, t := 36, ppu := ⟨9, false, false, false, []⟩ }

/-- The same with one RAM byte. -/
def readyRam (code : List Byte) (r : Regs) (o : Nat) (b : Byte) : State := { ready code r with ram := [(o, b)] }

/-- The same under `UNMAPPED_POLICY = Fault`. -/
def strict (s : State) : State := { s with cfg := { s.cfg with unmappedPolicy := .fault } }

/-- The same with both penalty parameters false. -/
def lean (s : State) : State := { s with cfg := { s.cfg with idxPagePenalty := false, branchPagePenalty := false } }

/-- The same with the vertical-blank latch set. -/
def blank (s : State) : State := { s with ppu := { s.ppu with vbl := true } }

/-- The state after a step. -/
def after (s : State) : State :=
  match step s with
  | .next t => t
  | _ => s

/-- The state after an instruction. -/
def run (i : Instr) (s : State) : State :=
  match exec i s with
  | .next t => t
  | _ => s

/-- CPU ticks between two states. -/
def ticks (s t : State) : Nat := (t.t - s.t) / 12

/-! ### Well-formedness -/

/-- The one check: an undefined instruction must name a byte the map leaves undefined (R105, R106). -/
theorem test_wf_refuses_undefined_of_an_admitted_byte : (Instr.undefined 0xA9).wf = false := by decide
theorem test_wf_accepts_undefined_of_a_free_byte : (Instr.undefined 0x02).wf = true := by decide

/-! ### Decoding: words from the opcode map (R104, R105), low address byte first (R101) -/

theorem test_decode_loads_and_stores :
    (decode [0xA9, 0x5A] = .instr (.ldaImm 0x5A) [] ∧ encode (.ldaImm 0x5A) = [0xA9, 0x5A]) ∧
    (decode [0xA5, 0x5A] = .instr (.ldaZp 0x5A) [] ∧ encode (.ldaZp 0x5A) = [0xA5, 0x5A]) ∧
    (decode [0xAD, 0x34, 0x12] = .instr (.ldaAbs 0x1234) [] ∧ encode (.ldaAbs 0x1234) = [0xAD, 0x34, 0x12]) ∧
    (decode [0xBD, 0x34, 0x12] = .instr (.ldaAbsX 0x1234) [] ∧ encode (.ldaAbsX 0x1234) = [0xBD, 0x34, 0x12]) ∧
    (decode [0xB9, 0x34, 0x12] = .instr (.ldaAbsY 0x1234) [] ∧ encode (.ldaAbsY 0x1234) = [0xB9, 0x34, 0x12]) ∧
    (decode [0xA2, 0x5A] = .instr (.ldxImm 0x5A) [] ∧ encode (.ldxImm 0x5A) = [0xA2, 0x5A]) ∧
    (decode [0xA6, 0x5A] = .instr (.ldxZp 0x5A) [] ∧ encode (.ldxZp 0x5A) = [0xA6, 0x5A]) ∧
    (decode [0xAE, 0x34, 0x12] = .instr (.ldxAbs 0x1234) [] ∧ encode (.ldxAbs 0x1234) = [0xAE, 0x34, 0x12]) ∧
    (decode [0xBE, 0x34, 0x12] = .instr (.ldxAbsY 0x1234) [] ∧ encode (.ldxAbsY 0x1234) = [0xBE, 0x34, 0x12]) ∧
    (decode [0xA0, 0x5A] = .instr (.ldyImm 0x5A) [] ∧ encode (.ldyImm 0x5A) = [0xA0, 0x5A]) ∧
    (decode [0xA4, 0x5A] = .instr (.ldyZp 0x5A) [] ∧ encode (.ldyZp 0x5A) = [0xA4, 0x5A]) ∧
    (decode [0xAC, 0x34, 0x12] = .instr (.ldyAbs 0x1234) [] ∧ encode (.ldyAbs 0x1234) = [0xAC, 0x34, 0x12]) ∧
    (decode [0xBC, 0x34, 0x12] = .instr (.ldyAbsX 0x1234) [] ∧ encode (.ldyAbsX 0x1234) = [0xBC, 0x34, 0x12]) ∧
    (decode [0x85, 0x5A] = .instr (.staZp 0x5A) [] ∧ encode (.staZp 0x5A) = [0x85, 0x5A]) ∧
    (decode [0x8D, 0x34, 0x12] = .instr (.staAbs 0x1234) [] ∧ encode (.staAbs 0x1234) = [0x8D, 0x34, 0x12]) ∧
    (decode [0x9D, 0x34, 0x12] = .instr (.staAbsX 0x1234) [] ∧ encode (.staAbsX 0x1234) = [0x9D, 0x34, 0x12]) ∧
    (decode [0x99, 0x34, 0x12] = .instr (.staAbsY 0x1234) [] ∧ encode (.staAbsY 0x1234) = [0x99, 0x34, 0x12]) ∧
    (decode [0x86, 0x5A] = .instr (.stxZp 0x5A) [] ∧ encode (.stxZp 0x5A) = [0x86, 0x5A]) ∧
    (decode [0x8E, 0x34, 0x12] = .instr (.stxAbs 0x1234) [] ∧ encode (.stxAbs 0x1234) = [0x8E, 0x34, 0x12]) ∧
    (decode [0x84, 0x5A] = .instr (.styZp 0x5A) [] ∧ encode (.styZp 0x5A) = [0x84, 0x5A]) ∧
    (decode [0x8C, 0x34, 0x12] = .instr (.styAbs 0x1234) [] ∧ encode (.styAbs 0x1234) = [0x8C, 0x34, 0x12]) := by decide

theorem test_decode_transfers :
    (decode [0xAA] = .instr .tax [] ∧ encode .tax = [0xAA]) ∧
    (decode [0xA8] = .instr .tay [] ∧ encode .tay = [0xA8]) ∧
    (decode [0x8A] = .instr .txa [] ∧ encode .txa = [0x8A]) ∧
    (decode [0x98] = .instr .tya [] ∧ encode .tya = [0x98]) ∧
    (decode [0xBA] = .instr .tsx [] ∧ encode .tsx = [0xBA]) ∧
    (decode [0x9A] = .instr .txs [] ∧ encode .txs = [0x9A]) := by decide

theorem test_decode_add_and_subtract :
    (decode [0x69, 0x5A] = .instr (.adcImm 0x5A) [] ∧ encode (.adcImm 0x5A) = [0x69, 0x5A]) ∧
    (decode [0x65, 0x5A] = .instr (.adcZp 0x5A) [] ∧ encode (.adcZp 0x5A) = [0x65, 0x5A]) ∧
    (decode [0x6D, 0x34, 0x12] = .instr (.adcAbs 0x1234) [] ∧ encode (.adcAbs 0x1234) = [0x6D, 0x34, 0x12]) ∧
    (decode [0x7D, 0x34, 0x12] = .instr (.adcAbsX 0x1234) [] ∧ encode (.adcAbsX 0x1234) = [0x7D, 0x34, 0x12]) ∧
    (decode [0x79, 0x34, 0x12] = .instr (.adcAbsY 0x1234) [] ∧ encode (.adcAbsY 0x1234) = [0x79, 0x34, 0x12]) ∧
    (decode [0xE9, 0x5A] = .instr (.sbcImm 0x5A) [] ∧ encode (.sbcImm 0x5A) = [0xE9, 0x5A]) ∧
    (decode [0xE5, 0x5A] = .instr (.sbcZp 0x5A) [] ∧ encode (.sbcZp 0x5A) = [0xE5, 0x5A]) ∧
    (decode [0xED, 0x34, 0x12] = .instr (.sbcAbs 0x1234) [] ∧ encode (.sbcAbs 0x1234) = [0xED, 0x34, 0x12]) ∧
    (decode [0xFD, 0x34, 0x12] = .instr (.sbcAbsX 0x1234) [] ∧ encode (.sbcAbsX 0x1234) = [0xFD, 0x34, 0x12]) ∧
    (decode [0xF9, 0x34, 0x12] = .instr (.sbcAbsY 0x1234) [] ∧ encode (.sbcAbsY 0x1234) = [0xF9, 0x34, 0x12]) := by decide

theorem test_decode_logic :
    (decode [0x29, 0x5A] = .instr (.andImm 0x5A) [] ∧ encode (.andImm 0x5A) = [0x29, 0x5A]) ∧
    (decode [0x25, 0x5A] = .instr (.andZp 0x5A) [] ∧ encode (.andZp 0x5A) = [0x25, 0x5A]) ∧
    (decode [0x2D, 0x34, 0x12] = .instr (.andAbs 0x1234) [] ∧ encode (.andAbs 0x1234) = [0x2D, 0x34, 0x12]) ∧
    (decode [0x3D, 0x34, 0x12] = .instr (.andAbsX 0x1234) [] ∧ encode (.andAbsX 0x1234) = [0x3D, 0x34, 0x12]) ∧
    (decode [0x39, 0x34, 0x12] = .instr (.andAbsY 0x1234) [] ∧ encode (.andAbsY 0x1234) = [0x39, 0x34, 0x12]) ∧
    (decode [0x09, 0x5A] = .instr (.oraImm 0x5A) [] ∧ encode (.oraImm 0x5A) = [0x09, 0x5A]) ∧
    (decode [0x05, 0x5A] = .instr (.oraZp 0x5A) [] ∧ encode (.oraZp 0x5A) = [0x05, 0x5A]) ∧
    (decode [0x0D, 0x34, 0x12] = .instr (.oraAbs 0x1234) [] ∧ encode (.oraAbs 0x1234) = [0x0D, 0x34, 0x12]) ∧
    (decode [0x1D, 0x34, 0x12] = .instr (.oraAbsX 0x1234) [] ∧ encode (.oraAbsX 0x1234) = [0x1D, 0x34, 0x12]) ∧
    (decode [0x19, 0x34, 0x12] = .instr (.oraAbsY 0x1234) [] ∧ encode (.oraAbsY 0x1234) = [0x19, 0x34, 0x12]) ∧
    (decode [0x49, 0x5A] = .instr (.eorImm 0x5A) [] ∧ encode (.eorImm 0x5A) = [0x49, 0x5A]) ∧
    (decode [0x45, 0x5A] = .instr (.eorZp 0x5A) [] ∧ encode (.eorZp 0x5A) = [0x45, 0x5A]) ∧
    (decode [0x4D, 0x34, 0x12] = .instr (.eorAbs 0x1234) [] ∧ encode (.eorAbs 0x1234) = [0x4D, 0x34, 0x12]) ∧
    (decode [0x5D, 0x34, 0x12] = .instr (.eorAbsX 0x1234) [] ∧ encode (.eorAbsX 0x1234) = [0x5D, 0x34, 0x12]) ∧
    (decode [0x59, 0x34, 0x12] = .instr (.eorAbsY 0x1234) [] ∧ encode (.eorAbsY 0x1234) = [0x59, 0x34, 0x12]) := by decide

theorem test_decode_compare_and_bit :
    (decode [0xC9, 0x5A] = .instr (.cmpImm 0x5A) [] ∧ encode (.cmpImm 0x5A) = [0xC9, 0x5A]) ∧
    (decode [0xC5, 0x5A] = .instr (.cmpZp 0x5A) [] ∧ encode (.cmpZp 0x5A) = [0xC5, 0x5A]) ∧
    (decode [0xCD, 0x34, 0x12] = .instr (.cmpAbs 0x1234) [] ∧ encode (.cmpAbs 0x1234) = [0xCD, 0x34, 0x12]) ∧
    (decode [0xDD, 0x34, 0x12] = .instr (.cmpAbsX 0x1234) [] ∧ encode (.cmpAbsX 0x1234) = [0xDD, 0x34, 0x12]) ∧
    (decode [0xD9, 0x34, 0x12] = .instr (.cmpAbsY 0x1234) [] ∧ encode (.cmpAbsY 0x1234) = [0xD9, 0x34, 0x12]) ∧
    (decode [0xE0, 0x5A] = .instr (.cpxImm 0x5A) [] ∧ encode (.cpxImm 0x5A) = [0xE0, 0x5A]) ∧
    (decode [0xE4, 0x5A] = .instr (.cpxZp 0x5A) [] ∧ encode (.cpxZp 0x5A) = [0xE4, 0x5A]) ∧
    (decode [0xEC, 0x34, 0x12] = .instr (.cpxAbs 0x1234) [] ∧ encode (.cpxAbs 0x1234) = [0xEC, 0x34, 0x12]) ∧
    (decode [0xC0, 0x5A] = .instr (.cpyImm 0x5A) [] ∧ encode (.cpyImm 0x5A) = [0xC0, 0x5A]) ∧
    (decode [0xC4, 0x5A] = .instr (.cpyZp 0x5A) [] ∧ encode (.cpyZp 0x5A) = [0xC4, 0x5A]) ∧
    (decode [0xCC, 0x34, 0x12] = .instr (.cpyAbs 0x1234) [] ∧ encode (.cpyAbs 0x1234) = [0xCC, 0x34, 0x12]) ∧
    (decode [0x24, 0x5A] = .instr (.bitZp 0x5A) [] ∧ encode (.bitZp 0x5A) = [0x24, 0x5A]) ∧
    (decode [0x2C, 0x34, 0x12] = .instr (.bitAbs 0x1234) [] ∧ encode (.bitAbs 0x1234) = [0x2C, 0x34, 0x12]) := by decide

theorem test_decode_index_and_shift :
    (decode [0xE8] = .instr .inx [] ∧ encode .inx = [0xE8]) ∧
    (decode [0xC8] = .instr .iny [] ∧ encode .iny = [0xC8]) ∧
    (decode [0xCA] = .instr .dex [] ∧ encode .dex = [0xCA]) ∧
    (decode [0x88] = .instr .dey [] ∧ encode .dey = [0x88]) ∧
    (decode [0x0A] = .instr .asl [] ∧ encode .asl = [0x0A]) ∧
    (decode [0x4A] = .instr .lsr [] ∧ encode .lsr = [0x4A]) ∧
    (decode [0x2A] = .instr .rol [] ∧ encode .rol = [0x2A]) ∧
    (decode [0x6A] = .instr .ror [] ∧ encode .ror = [0x6A]) := by decide

theorem test_decode_branches_and_jump :
    (decode [0x10, 0xF0] = .instr (.bpl 0xF0) [] ∧ encode (.bpl 0xF0) = [0x10, 0xF0]) ∧
    (decode [0x30, 0xF0] = .instr (.bmi 0xF0) [] ∧ encode (.bmi 0xF0) = [0x30, 0xF0]) ∧
    (decode [0x50, 0xF0] = .instr (.bvc 0xF0) [] ∧ encode (.bvc 0xF0) = [0x50, 0xF0]) ∧
    (decode [0x70, 0xF0] = .instr (.bvs 0xF0) [] ∧ encode (.bvs 0xF0) = [0x70, 0xF0]) ∧
    (decode [0x90, 0xF0] = .instr (.bcc 0xF0) [] ∧ encode (.bcc 0xF0) = [0x90, 0xF0]) ∧
    (decode [0xB0, 0xF0] = .instr (.bcs 0xF0) [] ∧ encode (.bcs 0xF0) = [0xB0, 0xF0]) ∧
    (decode [0xD0, 0xF0] = .instr (.bne 0xF0) [] ∧ encode (.bne 0xF0) = [0xD0, 0xF0]) ∧
    (decode [0xF0, 0xF0] = .instr (.beq 0xF0) [] ∧ encode (.beq 0xF0) = [0xF0, 0xF0]) ∧
    (decode [0x4C, 0x34, 0x12] = .instr (.jmp 0x1234) [] ∧ encode (.jmp 0x1234) = [0x4C, 0x34, 0x12]) := by decide

theorem test_decode_flags_and_nop :
    (decode [0x18] = .instr .clc [] ∧ encode .clc = [0x18]) ∧
    (decode [0x38] = .instr .sec [] ∧ encode .sec = [0x38]) ∧
    (decode [0x58] = .instr .cli [] ∧ encode .cli = [0x58]) ∧
    (decode [0x78] = .instr .sei [] ∧ encode .sei = [0x78]) ∧
    (decode [0xB8] = .instr .clv [] ∧ encode .clv = [0xB8]) ∧
    (decode [0xD8] = .instr .cld [] ∧ encode .cld = [0xD8]) ∧
    (decode [0xF8] = .instr .sed [] ∧ encode .sed = [0xF8]) ∧
    (decode [0xEA] = .instr .nop [] ∧ encode .nop = [0xEA]) := by decide

/-- Bytes off the map are `undefined` (R106), `BRK` and `JSR` among them; a missing operand is rejected by name. -/
theorem test_decode_undefined_and_rejections :
    decode [0x00] = .instr (.undefined 0x00) [] ∧ decode [0x20, 0x34, 0x12] = .instr (.undefined 0x20) [0x34, 0x12] ∧
    decode [0xFF] = .instr (.undefined 0xFF) [] ∧ decode [] = .rejected .noOpcode ∧
    decode [0xAD, 0x34] = .rejected (.missingOperand 0xAD) := by decide

/-- The host's numbering: the first byte in the low bits, bits above `nbits` zero. -/
theorem test_decode_table_word :
    decodeTableWord 24 0x1234AD = some (.ldaAbs 0x1234) ∧ decodeTableWord 8 0xAD = some (.ldaAbs 0x0000) ∧
    decodeTableWord 8 0xFFD0 = some (.bne 0x00) := by decide

/-- The placed instruction is the first one after reset. -/
theorem test_with_fetch_word :
    fetchInstr (State.reset.withFetchWord 24 0x1234AD) = .ldaAbs 0x1234 ∧
    atBoundary (State.reset.withFetchWord 24 0x1234AD) = true := by decide

/-- The informative fields of `ADC #` (R103): `aaa = 011`, `bbb = 010`, `cc = 01`. -/
theorem test_opcode_fields : opcodeFields 0x69 = (0b011, 0b010, 0b01) := by decide

/-- The bit positions of the flags in `P` (R24): C 0, Z 1, I 2, D 3, B 4, V 6, N 7. -/
theorem test_flag_bits : [Flag.c, .z, .i, .d, .b, .v, .n].map flagBit = [0, 1, 2, 3, 4, 6, 7] := by decide

/-! ### One step of each family -/

/-- LS1, S5 -/
theorem test_lda_imm_zero :
    let s := { ready [0xA9, 0x00] (regsOf 0x00 0x00 0x00 0x00) with regs := { regsOf 0x55 0 0 0 with p := { noFlags with n := true } } }
    let t := after s
    t.regs.a = 0x00 ∧ t.regs.p.z = true ∧ t.regs.p.n = false ∧ t.pc = 0x8002 ∧ ticks s t = 3 ∧ t.q = [] := by decide

/-- LS2 -/
theorem test_lda_imm_negative :
    let s := ready [0xA9, 0x80] (regsOf 0x00 0x00 0x00 0x00)
    let t := after s
    t.regs.a = 0x80 ∧ t.regs.p.n = true ∧ t.regs.p.z = false := by decide

/-- T2 -/
theorem test_lda_zp :
    let s := readyRam [0xA5, 0x10] (regsOf 0x00 0x00 0x00 0x00) 0x10 0x5A
    let t := after s
    t.regs.a = 0x5A ∧ t.regs.p.n = false ∧ t.regs.p.z = false ∧ ticks s t = 5 := by decide

/-- T3 -/
theorem test_lda_abs :
    let s := readyRam [0xAD, 0x34, 0x02] (regsOf 0x00 0x00 0x00 0x00) 0x234 0x77
    let t := after s
    t.regs.a = 0x77 ∧ t.pc = 0x8003 ∧ ticks s t = 6 := by decide

/-- LS13 -/
theorem test_lda_abs_status :
    let s := blank (ready [0xAD, 0x02, 0x20] (regsOf 0x00 0x00 0x00 0x00))
    let t := after s
    t.regs.a = 0x80 ∧ t.regs.p.n = true ∧ t.regs.p.z = false ∧ t.ppu.vbl = false ∧ ticks s t = 6 := by decide

/-- T4 -/
theorem test_lda_absx :
    let s := readyRam [0xBD, 0x30, 0x02] (regsOf 0x00 0x04 0x00 0x00) 0x234 0x77
    let t := after s
    t.regs.a = 0x77 ∧ ticks s t = 6 := by decide

/-- T5, T6 -/
theorem test_lda_absx_crossing :
    let s := readyRam [0xBD, 0xF0, 0x02] (regsOf 0x00 0x10 0x00 0x00) 0x300 0x99
    let t := after s
    t.regs.a = 0x99 ∧ t.regs.p.n = true ∧ ticks s t = 7 ∧ (after (lean s)).regs.a = 0x99 ∧ ticks s (after (lean s)) = 6 := by decide

/-- R180: the same row indexed by Y (T4) -/
theorem test_lda_absy :
    let s := readyRam [0xB9, 0x30, 0x02] (regsOf 0x00 0x00 0x04 0x00) 0x234 0x77
    let t := after s
    t.regs.a = 0x77 ∧ ticks s t = 6 := by decide

/-- LS3 -/
theorem test_ldx_imm :
    let s := ready [0xA2, 0xFF] (regsOf 0x00 0x00 0x00 0x00)
    let t := after s
    t.regs.x = 0xFF ∧ t.regs.p.n = true := by decide

/-- LS4 -/
theorem test_ldx_absy_crossing :
    let s := { ready [0xBE, 0xF0, 0x12] (regsOf 0x00 0x01 0xff 0x00) with ram := [] }
    let t := after s
    t.regs.x = 0x00 ∧ t.regs.p.z = true ∧ t.scratch.ea = 0x13EF ∧ ticks s t = 7 := by decide

/-- R181 over T2 -/
theorem test_ldx_zp :
    let s := readyRam [0xA6, 0x10] (regsOf 0x00 0x00 0x00 0x00) 0x10 0x5A
    let t := after s
    t.regs.x = 0x5A ∧ ticks s t = 5 := by decide

/-- R181 over T3 -/
theorem test_ldx_abs :
    let s := readyRam [0xAE, 0x34, 0x02] (regsOf 0x00 0x00 0x00 0x00) 0x234 0x77
    let t := after s
    t.regs.x = 0x77 ∧ ticks s t = 6 := by decide

/-- LS5 -/
theorem test_ldy_imm :
    let s := ready [0xA0, 0x80] (regsOf 0x00 0x00 0x00 0x00)
    let t := after s
    t.regs.y = 0x80 ∧ t.regs.p.n = true := by decide

/-- R182 over T2 -/
theorem test_ldy_zp_and_abs :
    let s := readyRam [0xA4, 0x10] (regsOf 0x00 0x00 0x00 0x00) 0x10 0x5A
    let t := after s
    t.regs.y = 0x5A ∧ ticks s t = 5 := by decide

/-- R182 over M5: `PRG[0x10]` through 0xC010 -/
theorem test_ldy_abs :
    let s := ready [0xAC, 0x10, 0xC0, 0x00, 0x00, 0x00, 0x00, 0x00, 0x00, 0x00, 0x00, 0x00, 0x00, 0x00, 0x00, 0x00, 0x3C] (regsOf 0x00 0x00 0x00 0x00)
    let t := after s
    t.regs.y = 0x3C := by decide

/-- R182 over T4 -/
theorem test_ldy_absx :
    let s := readyRam [0xBC, 0x30, 0x02] (regsOf 0x00 0x04 0x00 0x00) 0x234 0x77
    let t := after s
    t.regs.y = 0x77 ∧ ticks s t = 6 := by decide

/-- T8 -/
theorem test_sta_zp :
    let s := ready [0x85, 0x10] (regsOf 0x01 0x00 0x00 0x00)
    let t := after s
    t.ram = [(0x10, 0x01)] ∧ ticks s t = 4 := by decide

/-- M1 -/
theorem test_sta_abs_mirror :
    let s := ready [0x8D, 0x10, 0x08] (regsOf 0xab 0x00 0x00 0x00)
    let t := after s
    t.ram = [(0x010, 0xAB)] ∧ ticks s t = 5 := by decide

/-- M2 -/
theorem test_sta_abs_program :
    let s := ready [0x8D, 0x00, 0x80] (regsOf 0xab 0x00 0x00 0x00)
    let t := after s
    t.ram = [] ∧ t.cfg = s.cfg ∧ t.regs = s.regs ∧ t.ppu.log = [] ∧ ticks s t = 5 := by decide

/-- T7 -/
theorem test_sta_absx_penalty :
    let s := ready [0x9D, 0x00, 0x02] (regsOf 0x42 0x01 0x00 0x00)
    let t := after s
    t.ram = [(0x201, 0x42)] ∧ ticks s t = 6 ∧ ticks s (after (lean s)) = 5 := by decide

/-- M7 -/
theorem test_sta_absx_wrap :
    let s := ready [0x9D, 0xF0, 0xFF] (regsOf 0x42 0x20 0x00 0x00)
    let t := after s
    t.ram = [(0x10, 0x42)] ∧ ticks s t = 6 := by decide

/-- R183: the same row indexed by Y (T7) -/
theorem test_sta_absy :
    let s := ready [0x99, 0x00, 0x02] (regsOf 0x42 0x00 0x01 0x00)
    let t := after s
    t.ram = [(0x201, 0x42)] ∧ ticks s t = 6 := by decide

/-- LS6 -/
theorem test_stx_zp :
    let s := ready [0x86, 0x10] (regsOf 0x00 0x07 0x00 0x00)
    let t := after s
    t.ram = [(0x10, 0x07)] ∧ ticks s t = 4 ∧ t.regs = s.regs := by decide

/-- M9 -/
theorem test_stx_abs_log :
    let s := ready [0x8E, 0xFF, 0x3F] (regsOf 0x00 0x05 0x00 0x00)
    let t := after s
    t.ppu.log = [(7, 0x05)] := by decide

/-- M8 -/
theorem test_sty_abs_log :
    let s := ready [0x8C, 0x05, 0x20] (regsOf 0x00 0x00 0x99 0x00)
    let t := after s
    t.ppu.log = [(5, 0x99)] ∧ t.ram = [] := by decide

/-- R185 over T8 -/
theorem test_sty_zp :
    let s := ready [0x84, 0x10] (regsOf 0x00 0x00 0x01 0x00)
    let t := after s
    t.ram = [(0x10, 0x01)] ∧ ticks s t = 4 := by decide

/-- LS7 -/
theorem test_tax :
    let s := ready [0xAA] (regsOf 0x80 0x00 0x00 0x00)
    let t := after s
    t.regs.x = 0x80 ∧ t.regs.p.n = true ∧ t.regs.p.z = false ∧ t.pc = 0x8001 ∧ ticks s t = 2 := by decide

/-- LS8 -/
theorem test_tay :
    let s := ready [0xA8] (regsOf 0x00 0x00 0x09 0x00)
    let t := after s
    t.regs.y = 0x00 ∧ t.regs.p.z = true := by decide

/-- LS9 -/
theorem test_txa :
    let s := ready [0x8A] (regsOf 0x00 0x01 0x00 0x00)
    let t := after s
    t.regs.a = 0x01 ∧ t.regs.p.z = false ∧ t.regs.p.n = false := by decide

/-- LS10 -/
theorem test_tya :
    let s := ready [0x98] (regsOf 0x00 0x00 0xfe 0x00)
    let t := after s
    t.regs.a = 0xFE ∧ t.regs.p.n = true := by decide

/-- LS11 -/
theorem test_tsx :
    let s := ready [0xBA] (regsOf 0x00 0x00 0x00 0xfd)
    let t := after s
    t.regs.x = 0xFD ∧ t.regs.p.n = true := by decide

/-- LS12 -/
theorem test_txs :
    let s := ready [0x9A] (regsOf 0x00 0xff 0x00 0x00)
    let t := after s
    t.regs.sp = 0xFF ∧ t.regs.p = noFlags := by decide

/-- AL1, S6 -/
theorem test_adc_imm_source :
    let s := ready [0x69, 0x01] (withC (regsOf 0xff 0x00 0x00 0x00))
    let t := after s
    t.regs.a = 0x01 ∧ t.regs.p.c = true ∧ t.regs.p.z = false ∧ t.regs.p.v = false ∧ t.regs.p.n = false ∧ ticks s t = 3 := by decide

/-- AL5: the decimal flag is not read (R221) -/
theorem test_adc_imm_binary :
    let s := { ready [0x69, 0x01] (regsOf 0x00 0x00 0x00 0x00) with regs := { regsOf 0x09 0 0 0 with p := { noFlags with d := true } } }
    let t := after s
    t.regs.a = 0x0A ∧ t.regs.p.c = false := by decide

/-- R222, the operands of AL2 -/
theorem test_adc_zp_overflow :
    let s := readyRam [0x65, 0x10] (regsOf 0x80 0x00 0x00 0x00) 0x10 0x80
    let t := after s
    t.regs.a = 0x00 ∧ t.regs.p.c = true ∧ t.regs.p.z = true ∧ t.regs.p.v = true := by decide

/-- R222, the operands of AL3 -/
theorem test_adc_abs_carry_in :
    let s := readyRam [0x6D, 0x34, 0x02] (withC (regsOf 0x7f 0x00 0x00 0x00)) 0x235 0x55
    let t := after s
    t.regs.a = 0x80 ∧ t.regs.p.c = false ∧ t.regs.p.n = true ∧ t.regs.p.v = true := by decide

/-- R222, the operands of AL4 -/
theorem test_adc_absx :
    let s := readyRam [0x7D, 0x30, 0x02] (withC (regsOf 0xff 0x04 0x00 0x00)) 0x234 0xFF
    let t := after s
    t.regs.a = 0xFF ∧ t.regs.p.c = true ∧ t.regs.p.n = true ∧ t.regs.p.v = false := by decide

/-- R222 -/
theorem test_adc_absy :
    let s := readyRam [0x79, 0x30, 0x02] (withC (regsOf 0xff 0x00 0x04 0x00)) 0x234 0xFF
    let t := after s
    t.regs.a = 0xFF ∧ t.regs.p.c = true ∧ t.regs.p.n = true ∧ t.regs.p.v = false := by decide

/-- AL7 -/
theorem test_sbc_imm_borrow_in :
    let s := ready [0xE9, 0x03] (regsOf 0x05 0x00 0x00 0x00)
    let t := after s
    t.regs.a = 0x01 ∧ t.regs.p.c = true := by decide

/-- AL9 -/
theorem test_sbc_imm_overflow :
    let s := ready [0xE9, 0x01] (withC (regsOf 0x80 0x00 0x00 0x00))
    let t := after s
    t.regs.a = 0x7F ∧ t.regs.p.c = true ∧ t.regs.p.v = true := by decide

/-- R223, the operands of AL8 -/
theorem test_sbc_zp_borrow :
    let s := readyRam [0xE5, 0x10] (withC (regsOf 0x03 0x00 0x00 0x00)) 0x10 0x05
    let t := after s
    t.regs.a = 0xFE ∧ t.regs.p.c = false ∧ t.regs.p.n = true := by decide

/-- R223, the operands of AL10 -/
theorem test_sbc_abs :
    let s := ready [0xED, 0x34, 0x02] (regsOf 0x00 0x00 0x00 0x00)
    let t := after s
    t.regs.a = 0xFF ∧ t.regs.p.c = false ∧ t.regs.p.n = true := by decide

/-- R223, the operands of AL6 -/
theorem test_sbc_absx :
    let s := readyRam [0xFD, 0x30, 0x02] (withC (regsOf 0x05 0x04 0x00 0x00)) 0x234 0x03
    let t := after s
    t.regs.a = 0x02 ∧ t.regs.p.c = true := by decide

/-- R223, the operands of AL6 -/
theorem test_sbc_absy :
    let s := readyRam [0xF9, 0x30, 0x02] (withC (regsOf 0x05 0x00 0x04 0x00)) 0x234 0x03
    let t := after s
    t.regs.a = 0x02 ∧ t.regs.p.c = true := by decide

/-- AL11 -/
theorem test_and_imm :
    let s := ready [0x29, 0x3C] (regsOf 0xf0 0x00 0x00 0x00)
    let t := after s
    t.regs.a = 0x30 ∧ t.regs.p.z = false ∧ t.regs.p.n = false := by decide

/-- AL13 -/
theorem test_ora_imm :
    let s := ready [0x09, 0x80] (regsOf 0x01 0x00 0x00 0x00)
    let t := after s
    t.regs.a = 0x81 ∧ t.regs.p.n = true := by decide

/-- AL14 -/
theorem test_eor_imm :
    let s := ready [0x49, 0x0F] (regsOf 0xff 0x00 0x00 0x00)
    let t := after s
    t.regs.a = 0xF0 ∧ t.regs.p.n = true := by decide

/-- The memory modes of AND on `A = 0xF0`, `M = 0x3C` (R224-R226). -/
theorem test_and_memory_modes :
    (after (readyRam [0x25, 0x10] (regsOf 0xf0 0x00 0x00 0x00) 0x10 0x3C)).regs.a = 0x30 ∧
    (after (readyRam [0x2D, 0x34, 0x02] (regsOf 0xf0 0x00 0x00 0x00) 0x234 0x3C)).regs.a = 0x30 ∧
    (after (readyRam [0x3D, 0x30, 0x02] (regsOf 0xf0 0x04 0x00 0x00) 0x234 0x3C)).regs.a = 0x30 ∧
    (after (readyRam [0x39, 0x30, 0x02] (regsOf 0xf0 0x00 0x04 0x00) 0x234 0x3C)).regs.a = 0x30 := by decide

/-- The memory modes of ORA on `A = 0xF0`, `M = 0x3C` (R224-R226). -/
theorem test_ora_memory_modes :
    (after (readyRam [0x05, 0x10] (regsOf 0xf0 0x00 0x00 0x00) 0x10 0x3C)).regs.a = 0xFC ∧
    (after (readyRam [0x0D, 0x34, 0x02] (regsOf 0xf0 0x00 0x00 0x00) 0x234 0x3C)).regs.a = 0xFC ∧
    (after (readyRam [0x1D, 0x30, 0x02] (regsOf 0xf0 0x04 0x00 0x00) 0x234 0x3C)).regs.a = 0xFC ∧
    (after (readyRam [0x19, 0x30, 0x02] (regsOf 0xf0 0x00 0x04 0x00) 0x234 0x3C)).regs.a = 0xFC := by decide

/-- The memory modes of EOR on `A = 0xF0`, `M = 0x3C` (R224-R226). -/
theorem test_eor_memory_modes :
    (after (readyRam [0x45, 0x10] (regsOf 0xf0 0x00 0x00 0x00) 0x10 0x3C)).regs.a = 0xCC ∧
    (after (readyRam [0x4D, 0x34, 0x02] (regsOf 0xf0 0x00 0x00 0x00) 0x234 0x3C)).regs.a = 0xCC ∧
    (after (readyRam [0x5D, 0x30, 0x02] (regsOf 0xf0 0x04 0x00 0x00) 0x234 0x3C)).regs.a = 0xCC ∧
    (after (readyRam [0x59, 0x30, 0x02] (regsOf 0xf0 0x00 0x04 0x00) 0x234 0x3C)).regs.a = 0xCC := by decide

/-- AL16 -/
theorem test_cmp_imm_less :
    let s := ready [0xC9, 0x01] (regsOf 0x00 0x00 0x00 0x00)
    let t := after s
    t.regs.p.c = false ∧ t.regs.p.z = false ∧ t.regs.p.n = true ∧ t.regs.a = 0x00 := by decide

/-- AL17 -/
theorem test_cmp_imm_unsigned :
    let s := ready [0xC9, 0x00] (regsOf 0x80 0x00 0x00 0x00)
    let t := after s
    t.regs.p.c = true ∧ t.regs.p.z = false ∧ t.regs.p.n = true := by decide

/-- The memory modes of CMP on `A = 0x40`, `M = 0x30` (AL15). -/
theorem test_cmp_memory_modes :
    (after (readyRam [0xC5, 0x10] (regsOf 0x40 0x00 0x00 0x00) 0x10 0x30)).regs.p = { noFlags with c := true } ∧
    (after (readyRam [0xCD, 0x34, 0x02] (regsOf 0x40 0x00 0x00 0x00) 0x234 0x30)).regs.p = { noFlags with c := true } ∧
    (after (readyRam [0xDD, 0x30, 0x02] (regsOf 0x40 0x04 0x00 0x00) 0x234 0x30)).regs.p = { noFlags with c := true } ∧
    (after (readyRam [0xD9, 0x30, 0x02] (regsOf 0x40 0x00 0x04 0x00) 0x234 0x30)).regs.p = { noFlags with c := true } := by decide

/-- AL18 -/
theorem test_cpx_imm :
    let s := ready [0xE0, 0x05] (regsOf 0x00 0x05 0x00 0x00)
    let t := after s
    t.regs.p.c = true ∧ t.regs.p.z = true ∧ t.regs.p.n = false := by decide

/-- AL19 -/
theorem test_cpy_imm :
    let s := ready [0xC0, 0x01] (regsOf 0x00 0x00 0x00 0x00)
    let t := after s
    t.regs.p.c = false ∧ t.regs.p.z = false ∧ t.regs.p.n = true := by decide

/-- The memory modes of CPX and CPY on equal operands (AL18). -/
theorem test_cpx_cpy_memory_modes :
    (after (readyRam [0xE4, 0x10] (regsOf 0x00 0x05 0x00 0x00) 0x10 0x05)).regs.p = { noFlags with c := true, z := true } ∧
    (after (readyRam [0xEC, 0x34, 0x02] (regsOf 0x00 0x05 0x00 0x00) 0x234 0x05)).regs.p = { noFlags with c := true, z := true } ∧
    (after (readyRam [0xC4, 0x10] (regsOf 0x00 0x00 0x05 0x00) 0x10 0x05)).regs.p = { noFlags with c := true, z := true } ∧
    (after (readyRam [0xCC, 0x34, 0x02] (regsOf 0x00 0x00 0x05 0x00) 0x234 0x05)).regs.p = { noFlags with c := true, z := true } := by decide

/-- AL20 -/
theorem test_bit_zp :
    let s := readyRam [0x24, 0x10] (regsOf 0x01 0x00 0x00 0x00) 0x10 0xC0
    let t := after s
    t.regs.p.z = true ∧ t.regs.p.v = true ∧ t.regs.p.n = true ∧ t.regs.a = 0x01 ∧ ticks s t = 5 := by decide

/-- AL21 -/
theorem test_bit_abs_status :
    let s := blank (ready [0x2C, 0xFA, 0x3F] (regsOf 0x00 0x00 0x00 0x00))
    let t := after s
    t.regs.p.n = true ∧ t.regs.p.v = false ∧ t.regs.p.z = true ∧ t.ppu.vbl = false := by decide

/-- AL22 -/
theorem test_inx :
    let s := ready [0xE8] (withC (regsOf 0x00 0xff 0x00 0x00))
    let t := after s
    t.regs.x = 0x00 ∧ t.regs.p.z = true ∧ t.regs.p.c = true := by decide

/-- AL23 -/
theorem test_iny :
    let s := ready [0xC8] (regsOf 0x00 0x00 0xff 0x00)
    let t := after s
    t.regs.y = 0x00 ∧ t.regs.p.z = true := by decide

/-- AL24 -/
theorem test_dex :
    let s := ready [0xCA] (regsOf 0x00 0x00 0x00 0x00)
    let t := after s
    t.regs.x = 0xFF ∧ t.regs.p.n = true := by decide

/-- AL25 -/
theorem test_dey :
    let s := ready [0x88] (regsOf 0x00 0x00 0x00 0x00)
    let t := after s
    t.regs.y = 0xFF ∧ t.regs.p.n = true := by decide

/-- AL26 -/
theorem test_asl :
    let s := ready [0x0A] (regsOf 0x41 0x00 0x00 0x00)
    let t := after s
    t.regs.a = 0x82 ∧ t.regs.p.c = false ∧ t.regs.p.n = true := by decide

/-- AL27 -/
theorem test_asl_out :
    let s := ready [0x0A] (regsOf 0x80 0x00 0x00 0x00)
    let t := after s
    t.regs.a = 0x00 ∧ t.regs.p.c = true ∧ t.regs.p.z = true := by decide

/-- AL28 -/
theorem test_lsr :
    let s := ready [0x4A] (regsOf 0x82 0x00 0x00 0x00)
    let t := after s
    t.regs.a = 0x41 ∧ t.regs.p.c = false ∧ t.regs.p.n = false := by decide

/-- AL29 -/
theorem test_lsr_out :
    let s := ready [0x4A] (regsOf 0x01 0x00 0x00 0x00)
    let t := after s
    t.regs.a = 0x00 ∧ t.regs.p.c = true ∧ t.regs.p.z = true := by decide

/-- AL30 -/
theorem test_rol :
    let s := ready [0x2A] (withC (regsOf 0x40 0x00 0x00 0x00))
    let t := after s
    t.regs.a = 0x81 ∧ t.regs.p.c = false ∧ t.regs.p.n = true := by decide

/-- AL31 -/
theorem test_rol_out :
    let s := ready [0x2A] (regsOf 0x80 0x00 0x00 0x00)
    let t := after s
    t.regs.a = 0x00 ∧ t.regs.p.c = true ∧ t.regs.p.z = true := by decide

/-- AL32 -/
theorem test_ror :
    let s := ready [0x6A] (withC (regsOf 0x02 0x00 0x00 0x00))
    let t := after s
    t.regs.a = 0x81 ∧ t.regs.p.c = false ∧ t.regs.p.n = true := by decide

/-- AL34 -/
theorem test_ror_out :
    let s := ready [0x6A] (regsOf 0x01 0x00 0x00 0x00)
    let t := after s
    t.regs.a = 0x00 ∧ t.regs.p.c = true ∧ t.regs.p.z = true := by decide

/-- BR1 -/
theorem test_bpl_taken :
    let s := ready [0x10, 0x05] (regsOf 0x00 0x00 0x00 0x00)
    let t := after s
    t.pc = 0x8007 ∧ ticks s t = 4 := by decide

/-- BR2 -/
theorem test_bmi_not_taken :
    let s := ready [0x30, 0x05] (regsOf 0x00 0x00 0x00 0x00)
    let t := after s
    t.pc = 0x8002 ∧ ticks s t = 3 := by decide

/-- BR3 -/
theorem test_bvc_crossing :
    let s := { ready [] (regsOf 0 0 0 0) with pc := 0x80f0, regs := { regsOf 0 0 0 0 with p := { noFlags with v := false } }, cfg := { Config.default with prg := lay [] 0x00f0 [0x50, 0x20] } }
    let t := after s
    t.pc = 0x8112 ∧ ticks s t = 5 ∧ (after (lean s)).pc = 0x8112 ∧ ticks s (after (lean s)) = 4 := by decide

/-- BR4 -/
theorem test_bvs_taken :
    let s := { ready [] (regsOf 0 0 0 0) with pc := 0x8010, regs := { regsOf 0 0 0 0 with p := { noFlags with v := true } }, cfg := { Config.default with prg := lay [] 0x0010 [0x70, 0xF0] } }
    let t := after s
    t.pc = 0x8002 ∧ ticks s t = 4 := by decide

/-- BR5 -/
theorem test_bcc_not_taken :
    let s := { ready [] (regsOf 0 0 0 0) with pc := 0x8000, regs := { regsOf 0 0 0 0 with p := { noFlags with c := true } }, cfg := { Config.default with prg := lay [] 0x0000 [0x90, 0x05] } }
    let t := after s
    t.pc = 0x8002 ∧ ticks s t = 3 := by decide

/-- BR6: in RAM, no crossing relative to the address after the offset -/
theorem test_bcs_page_of_next :
    let s := { ready [] (withC (regsOf 0 0 0 0)) with pc := 0x00FE, ram := [(0x00FE, 0xB0)] }
    let t := after s
    t.pc = 0x0100 ∧ ticks s t = 4 := by decide

/-- BR7, S7 -/
theorem test_bne_taken :
    let s := { ready [] (regsOf 0 0 0 0) with pc := 0x8010, regs := { regsOf 0 0 0 0 with p := { noFlags with z := false } }, cfg := { Config.default with prg := lay [] 0x0010 [0xD0, 0xFE] } }
    let t := after s
    t.pc = 0x8010 ∧ ticks s t = 4 ∧ t.regs = s.regs := by decide

/-- S7 -/
theorem test_bne_not_taken :
    let s := { ready [] (regsOf 0 0 0 0) with pc := 0x8010, regs := { regsOf 0 0 0 0 with p := { noFlags with z := true } }, cfg := { Config.default with prg := lay [] 0x0010 [0xD0, 0xFE] } }
    let t := after s
    t.pc = 0x8012 ∧ ticks s t = 3 := by decide

/-- BR8 -/
theorem test_beq_crossing_down :
    let s := { ready [] (regsOf 0 0 0 0) with pc := 0x8100, regs := { regsOf 0 0 0 0 with p := { noFlags with z := true } }, cfg := { Config.default with prg := lay [] 0x0100 [0xF0, 0x80] } }
    let t := after s
    t.pc = 0x8082 ∧ ticks s t = 5 := by decide

/-- BR9 -/
theorem test_beq_wrap :
    let s := { ready [] (regsOf 0 0 0 0) with pc := 0xfff0, regs := { regsOf 0 0 0 0 with p := { noFlags with z := true } }, cfg := { Config.default with prg := lay [] 0x3ff0 [0xF0, 0x7F] } }
    let t := after s
    t.pc = 0x0071 ∧ ticks s t = 5 := by decide

/-- T9 -/
theorem test_jmp :
    let s := ready [0x4C, 0x00, 0x80] (regsOf 0x00 0x00 0x00 0x00)
    let t := after s
    t.pc = 0x8000 ∧ ticks s t = 4 ∧ t.regs = s.regs := by decide

/-- BR10: each flag instruction writes its flag and no other, in 2 ticks. -/
theorem test_flag_instructions :
    let all : Flags := ⟨true, true, true, true, true, true, true⟩
    let up : Regs := { regsOf 0 0 0 0 with p := all }
    (after (ready [0x18] up)).regs.p = { all with c := false } ∧ (after (ready [0x38] (regsOf 0 0 0 0))).regs.p = { noFlags with c := true } ∧
    (after (ready [0x58] up)).regs.p = { all with i := false } ∧ (after (ready [0x78] (regsOf 0 0 0 0))).regs.p = { noFlags with i := true } ∧
    (after (ready [0xB8] up)).regs.p = { all with v := false } ∧ (after (ready [0xD8] up)).regs.p = { all with d := false } ∧
    (after (ready [0xF8] (regsOf 0 0 0 0))).regs.p = { noFlags with d := true } ∧ ticks (ready [0x18] up) (after (ready [0x18] up)) = 2 := by
  decide

/-- T1, R297 -/
theorem test_nop :
    let s := ready [0xEA] (regsOf 0x05 0x06 0x07 0x08)
    let t := after s
    t.pc = 0x8001 ∧ ticks s t = 2 ∧ t.q = [] ∧ t.regs = s.regs ∧ t.ram = s.ram := by decide

/-! ### Halts -/

/-- H1: from the first decode step at master tick 36 -/
theorem test_undefined_halts :
    let s := ready [0x02] (regsOf 0x00 0x00 0x00 0x00)
    let t := after s
    t.halt.map HaltRecord.reason = some (.undefinedOpcode 0x02 0x8000) ∧ t.halt.map HaltRecord.t = some 48 ∧ t.pc = 0x8001 ∧ t.q = [] ∧ t.t = 49 := by decide

/-- M3 -/
theorem test_unmapped_load_zero_policy :
    let s := ready [0xAD, 0x00, 0x40] (regsOf 0x55 0x00 0x00 0x00)
    let t := after s
    t.regs.a = 0x00 ∧ t.regs.p.z = true ∧ t.halt = none := by decide

/-- M4: the Access tick is CPU tick 7, master tick 84 -/
theorem test_unmapped_load_fault_policy :
    let s := strict (ready [0xAD, 0x00, 0x40] (regsOf 0x55 0x00 0x00 0x00))
    let t := after s
    t.regs.a = 0x55 ∧ t.halt.map HaltRecord.reason = some (.unmappedAccess 0x4000 .read) ∧ t.halt.map HaltRecord.t = some 84 ∧ t.q = [.commit] ∧ t.t = 85 := by decide

/-- H2: the decode tick halts, Dispatch never runs -/
theorem test_unmapped_fetch :
    let s := strict { ready [] (regsOf 0x00 0x00 0x00 0x00) with pc := 0x4000, t := 84 }
    let t := after s
    t.halt.map HaltRecord.reason = some (.unmappedAccess 0x4000 .read) ∧ t.halt.map HaltRecord.t = some 84 ∧ t.q = [.dispatch] ∧ t.pc = 0x4001 := by decide

/-! ### Memory, bus and devices -/

/-- S1: write 0xAB to 0x0810, read it at all four aliases, and not beside them. -/
theorem test_ram_mirror :
    let s := memWrite 0x0810 0xAB State.reset
    peek s 0x0010 = 0xAB ∧ peek s 0x0810 = 0xAB ∧ peek s 0x1010 = 0xAB ∧ peek s 0x1810 = 0xAB ∧ peek s 0x0811 = 0x00 := by decide

/-- S2, R62: aliases of a PPU register and the ends of the ranges. -/
theorem test_decode_addr :
    decodeAddr 0x3FFA = .ppu 2 ∧ decodeAddr 0x200A = .ppu 2 ∧ decodeAddr 0x3FFF = .ppu 7 ∧ decodeAddr 0x1FFF = .ram 0x07FF ∧
    decodeAddr 0x4000 = .unmapped ∧ decodeAddr 0x7FFF = .unmapped ∧ decodeAddr 0x8000 = .prg 0 ∧ decodeAddr 0xFFFF = .prg 0x7FFF := by
  decide

/-- M5, M6: a 16 KiB image is mirrored at 0xC000, a 32 KiB image is not. -/
theorem test_program_mirror :
    let one := { Config.default with prg := [(0x0010, 0x3C), (0x4010, 0x5D)] }
    prgByte one 0x4010 = 0x3C ∧ prgByte { one with prgBanks := 2 } 0x4010 = 0x5D := by decide

/-- H6, H7, M10: the status read clears `vbl`; other reads give 0; a write is logged and sets no latch. -/
theorem test_ppu_registers :
    let s := { State.reset with ppu := ⟨0, true, false, false, []⟩ }
    (memRead 0x2002 s).1 = 0x80 ∧ (memRead 0x2002 s).2.ppu.vbl = false ∧ (memRead 0x2002 (memRead 0x2002 s).2).1 = 0x00 ∧
    memRead 0x2007 s = (0x00, s) ∧ (memWrite 0x2002 0x80 State.reset).ppu = ⟨0, false, false, false, [(2, 0x80)]⟩ := by decide

/-- The canonical form of a store: writing the unlisted value removes the entry. -/
theorem test_memory_canonical :
    Memory.write (Memory.write [] 5 0x11) 3 0x22 = [(3, 0x22), (5, 0x11)] ∧ Memory.write [(3, 0x22), (5, 0x11)] 3 0x00 = [(5, 0x11)] := by
  decide

/-! ### Clock driver, PPU timing and reset -/

/-- S8: periods 3 and 4 over ticks 0 to 11. -/
theorem test_clock_driver :
    let div := [(3, Callback.host 3), (4, Callback.host 4)]
    (List.range 12).map (fun t => firing t div) =
      [[.host 3, .host 4], [], [], [.host 3], [.host 4], [], [.host 3], [], [.host 4], [.host 3], [], []] := by decide

/-- H3: a period of 0 is refused, and a negative one. -/
theorem test_add_periodic :
    addPeriodic 0 (.host 1) State.reset = State.reset ∧ addPeriodic (-1) (.host 1) State.reset = State.reset ∧
    (addPeriodic 5 (.host 1) State.reset).div = [(12, .cpuBus), (4, .ppu), (5, .host 1)] := by decide

/-- H5: the PPU tick numbers 82181 and 89341 of a frame with the default constants. -/
theorem test_ppu_tick :
    ppuTick Config.default ⟨82181, false, false, false, []⟩ = ⟨82182, true, false, false, []⟩ ∧
    ppuTick Config.default ⟨89341, true, false, false, []⟩ = ⟨0, false, false, false, []⟩ := by decide

/-- S4: the vector bytes 0x34 and 0x12 at the end of a 16 KiB image. -/
theorem test_reset_vector :
    let s := runTicks 36 (State.construct { Config.default with prg := [(0x3FFC, 0x34), (0x3FFD, 0x12)] } Draws.zero)
    s.pc = 0x1234 ∧ s.q = [] ∧ s.t = 36 ∧ s.ppu.pos = 9 := by decide

/-- T12: the queue while `LDA $02F0,X` crosses a page, after each CPU tick. -/
theorem test_queue_contents :
    let s := ready [0xBD, 0xF0, 0x02] (regsOf 0 0x10 0 0)
    [runTicks 1 s, runTicks 13 s, runTicks 25 s, runTicks 37 s, runTicks 49 s].map State.q =
      [[.dispatch], [.absLo, .absHi .x], [.absHi .x], [.penalty, .access, .commit], [.access, .commit]] := by decide

/-- T10, T11: the bus addresses of an absolute load and an absolute store. -/
theorem test_bus_traffic :
    busTrace 6 (ready [0xAD, 0x34, 0x02] (regsOf 0 0 0 0)) =
      [(.read, 0x8000), (.read, 0x8001), (.read, 0x8002), (.read, 0x8002), (.read, 0x0234), (.read, 0x0234)] ∧
    busTrace 5 (ready [0x8D, 0x00, 0x02] (regsOf 0 0 0 0)) =
      [(.read, 0x8000), (.read, 0x8001), (.read, 0x8002), (.read, 0x8002), (.write, 0x0200)] := by decide

/-- R345: after `stop()` no master tick runs. -/
theorem test_host_stop : hostStep 5 (hostStop ⟨State.reset, false⟩) = ⟨State.reset, true⟩ ∧
    (hostStep 5 ⟨State.reset, false⟩).block.t = 5 := by decide

/-- R109: the assembler spelling. -/
theorem test_asm : (Instr.ldaImm 0x0A).asm = "LDA #$0A" ∧ (Instr.bne 0xFE).asm = "BNE *+0" ∧ (Instr.asl).asm = "ASL A" := by decide

/-! ### Witnesses: states and operands that meet the hypotheses of each statement -/

/-- A ready state under the stricter policy, its program in program storage; index 0x10 so that 0x02F0 crosses a page. -/
def here : State := strict (ready [] (regsOf 0x55 0x10 0x10 0))

/-- A state of the undefined opcode 0x02 about to be decoded. -/
def doomed : State := ready [0x02] (regsOf 0 0 0 0)

/-- A defined and an undefined instruction. -/
theorem witness_DecodeOfEncodeIsTheInstruction :
    (Instr.staAbsX 0x1234).wf = true ∧ (Instr.undefined 0x02).wf = true := by decide

/-- Bytes that decode, with more after them. -/
theorem witness_DecodedBytesEncodeBack :
    decode [0x8D, 0x34, 0x12, 0xEA] = .instr (.staAbs 0x1234) [0xEA] := by decide

/-- A boundary whose bytes are an instruction of three bytes, and a state that is no boundary. -/
theorem witness_StepRunsTheDecodedInstruction :
    let s := ready [0xAD, 0x34, 0x02] (regsOf 0 0 0 0)
    atBoundary s = true ∧ (Instr.ldaAbs 0x0234).wf = true ∧
    (∀ k : Nat, k < (encode (.ldaAbs 0x0234)).length →
      some (peek s (s.pc + BitVec.ofNat 16 k)) = (encode (.ldaAbs 0x0234))[k]?) ∧ atBoundary State.reset = false := by decide

/-- The reset state and a word. -/
theorem witness_PlacedWordIsRunByTheNextStep :
    1 ≤ State.reset.cfg.prgBanks ∧ State.reset.cfg.prg.wf = true ∧ State.reset.ram.wf = true ∧
    decodeTableWord 8 0xEA = some .nop := by decide

/-- A boundary. -/
theorem witness_StepIsTheSchedulersMasterTicks :
    atBoundary here = true := by decide

/-- The state after the reset sequence, at the first decode step, has the invariant. -/
theorem ready_inv : Inv here :=
  ⟨by decide, by decide, by decide, by decide, by decide, by decide, by decide, by simp [here, strict, ready, State.construct]⟩

/-- A halted state has the invariant. -/
theorem halted_inv : Inv (after doomed) :=
  ⟨by decide, by decide, by decide, by decide, by decide, by decide, by decide, fun r hr => by
    have h : ∀ r ∈ (after doomed).halt, haltFits (after doomed) r = true := by decide
    exact h r hr⟩

theorem witness_StepKeepsTheInvariant : Inv doomed ∧ step doomed = .next (after doomed) :=
  ⟨⟨by decide, by decide, by decide, by decide, by decide, by decide, by decide, by simp [doomed, ready, State.construct]⟩, rfl⟩

theorem witness_MasterTickKeepsTheInvariant : Inv here ∧ Inv (after doomed) := ⟨ready_inv, halted_inv⟩

theorem witness_QueueHoldsAtMostThree : Inv here := ready_inv

/-- Parameters and draws that are not refused. -/
theorem witness_ConstructionMeetsTheInvariant :
    constructBlock Config.default Draws.zero = some State.reset := by decide

/-- Immediate and zero page; absolute; indexed across a page. -/
theorem witness_LdaLoadsTheAccumulator :
    Ready here ∧ BusClear here [here.pc, here.pc + 1] ∧ BusClear here (absoluteFetches here true ++ [0x0234 + zext16 0x00]) ∧
    BusClear here (absoluteFetches here true ++ [0x02f0 + zext16 here.regs.x]) ∧ hiByte (0x02F0 + zext16 here.regs.x) ≠ hiByte 0x02F0 := by decide

/-- Immediate and zero page; absolute; indexed across a page. -/
theorem witness_LdxLoadsX :
    Ready here ∧ BusClear here [here.pc, here.pc + 1] ∧ BusClear here (absoluteFetches here true ++ [0x0234 + zext16 0x00]) ∧
    BusClear here (absoluteFetches here true ++ [0x02f0 + zext16 here.regs.x]) ∧ hiByte (0x02F0 + zext16 here.regs.x) ≠ hiByte 0x02F0 := by decide

/-- Immediate and zero page; absolute; indexed across a page. -/
theorem witness_LdyLoadsY :
    Ready here ∧ BusClear here [here.pc, here.pc + 1] ∧ BusClear here (absoluteFetches here true ++ [0x0234 + zext16 0x00]) ∧
    BusClear here (absoluteFetches here true ++ [0x02f0 + zext16 here.regs.x]) ∧ hiByte (0x02F0 + zext16 here.regs.x) ≠ hiByte 0x02F0 := by decide

/-- Immediate and zero page; absolute; indexed across a page. -/
theorem witness_AdcAddsWithCarry :
    Ready here ∧ BusClear here [here.pc, here.pc + 1] ∧ BusClear here (absoluteFetches here true ++ [0x0234 + zext16 0x00]) ∧
    BusClear here (absoluteFetches here true ++ [0x02f0 + zext16 here.regs.x]) ∧ hiByte (0x02F0 + zext16 here.regs.x) ≠ hiByte 0x02F0 := by decide

/-- Immediate and zero page; absolute; indexed across a page. -/
theorem witness_SbcSubtractsWithBorrow :
    Ready here ∧ BusClear here [here.pc, here.pc + 1] ∧ BusClear here (absoluteFetches here true ++ [0x0234 + zext16 0x00]) ∧
    BusClear here (absoluteFetches here true ++ [0x02f0 + zext16 here.regs.x]) ∧ hiByte (0x02F0 + zext16 here.regs.x) ≠ hiByte 0x02F0 := by decide

/-- Immediate and zero page; absolute; indexed across a page. -/
theorem witness_LogicOperationsCombineWithA :
    Ready here ∧ BusClear here [here.pc, here.pc + 1] ∧ BusClear here (absoluteFetches here true ++ [0x0234 + zext16 0x00]) ∧
    BusClear here (absoluteFetches here true ++ [0x02f0 + zext16 here.regs.x]) ∧ hiByte (0x02F0 + zext16 here.regs.x) ≠ hiByte 0x02F0 := by decide

/-- Immediate and zero page; absolute; indexed across a page. -/
theorem witness_ComparesSetCarryZeroNegative :
    Ready here ∧ BusClear here [here.pc, here.pc + 1] ∧ BusClear here (absoluteFetches here true ++ [0x0234 + zext16 0x00]) ∧
    BusClear here (absoluteFetches here true ++ [0x02f0 + zext16 here.regs.x]) ∧ hiByte (0x02F0 + zext16 here.regs.x) ≠ hiByte 0x02F0 := by decide

/-- Immediate and zero page; absolute; indexed across a page. -/
theorem witness_BitTestsTheMemoryByte :
    Ready here ∧ BusClear here [here.pc, here.pc + 1] ∧ BusClear here (absoluteFetches here true ++ [0x0234 + zext16 0x00]) ∧
    BusClear here (absoluteFetches here true ++ [0x02f0 + zext16 here.regs.x]) ∧ hiByte (0x02F0 + zext16 here.regs.x) ≠ hiByte 0x02F0 := by decide

/-- Zero page; absolute; indexed across a page, with the penalty tick. -/
theorem witness_StaStoresTheAccumulator :
    Ready here ∧ BusClear here [here.pc, here.pc + 1] ∧ BusClear here (absoluteFetches here true ++ [0x0234 + zext16 0x00]) ∧
    BusClear here (absoluteFetches here true ++ [0x02f0 + zext16 here.regs.x]) ∧ hiByte (0x02F0 + zext16 here.regs.x) ≠ hiByte 0x02F0 := by decide

/-- Zero page; absolute; indexed across a page, with the penalty tick. -/
theorem witness_StxAndStyStoreTheIndexRegisters :
    Ready here ∧ BusClear here [here.pc, here.pc + 1] ∧ BusClear here (absoluteFetches here true ++ [0x0234 + zext16 0x00]) ∧
    BusClear here (absoluteFetches here true ++ [0x02f0 + zext16 here.regs.x]) ∧ hiByte (0x02F0 + zext16 here.regs.x) ≠ hiByte 0x02F0 := by decide

/-- A ready state whose opcode is mapped. -/
theorem witness_TransfersCopyOneRegister :
    Ready here ∧ BusClear here [here.pc] := by decide

/-- A ready state whose opcode is mapped. -/
theorem witness_IndexRegistersCountModulo256 :
    Ready here ∧ BusClear here [here.pc] := by decide

/-- A ready state whose opcode is mapped. -/
theorem witness_ShiftsMoveOneBitThroughCarry :
    Ready here ∧ BusClear here [here.pc] := by decide

/-- A ready state whose opcode is mapped. -/
theorem witness_FlagInstructionsWriteOneFlag :
    Ready here ∧ BusClear here [here.pc] := by decide

/-- A ready state whose opcode is mapped. -/
theorem witness_NopOnlyAdvances :
    Ready here ∧ BusClear here [here.pc] := by decide

/-- A ready state; a condition that holds and one that does not. -/
theorem witness_BranchesGoToTheSignedOffset :
    Ready here ∧ BusClear here [here.pc, here.pc + 1] ∧ branchCond .bne here.regs.p = true ∧ branchCond .beq here.regs.p = false := by decide

/-- A ready state. -/
theorem witness_JmpSetsTheProgramCounter :
    Ready here ∧ BusClear here [here.pc, here.pc + 1, here.pc + 2] := by decide

/-- The opcode 0x02. -/
theorem witness_UndefinedOpcodeHaltsInDispatch :
    isAdmitted 0x02 = false ∧ Ready doomed ∧ BusClear doomed [doomed.pc] := by decide

/-- A transaction at 0x4000 and one at 0x7FFF: under either policy, and halted. -/
theorem witness_UnmappedBusStepHaltsOnlyUnderFault :
    let lax := { State.reset with tx := ⟨0x4000, 0, .read⟩ }
    let tight := strict { State.reset with tx := ⟨0x7FFF, 0x42, .write⟩ }
    (isMapped lax.tx.addr = false ∧ lax.cfg.unmappedPolicy = .zero) ∧
    (isMapped tight.tx.addr = false ∧ tight.cfg.unmappedPolicy = .fault ∧ tight.halt = none) ∧
    ({ after doomed with tx := ⟨0x4000, 0, .read⟩ }.halt = some (haltRecord (.undefinedOpcode 0x02 0x8000)
      { doomed with pc := 0x8001, tx := ⟨0x8000, 0x02, .read⟩, t := 48 })) := by decide

/-- The last RAM-window address, the first and last PPU address, the first of program storage. -/
theorem witness_MappedBusStepRaisesNoHalt :
    isMapped 0x1FFF = true ∧ isMapped 0x2000 = true ∧ isMapped 0x3FFF = true ∧ isMapped 0x8000 = true ∧
    isMapped { State.reset with tx := ⟨0x3FFF, 0, .read⟩ }.tx.addr = true := by decide

/-- `PC` at 0x4000 under `Fault`. -/
theorem witness_UnmappedFetchHaltsAtTheDecodeTick :
    let s := strict { ready [] (regsOf 0 0 0 0) with pc := 0x4000 }
    Ready s ∧ s.cfg.unmappedPolicy = .fault ∧ isMapped s.pc = false := by decide

/-- The first and last unmapped address: a read and a store, absolute, and indexed by each register, X across a page. -/
theorem witness_UnmappedDataAccessLeavesTheRegister :
    Ready here ∧ here.cfg.unmappedPolicy = .fault ∧ [here.pc, here.pc + 1, here.pc + 2].all isMapped = true ∧
    ((Instr.bitAbs 0x4000).entry = ⟨.read .bit, .absolute .noIndex⟩ ∧ isMapped (operandAddr (.bitAbs 0x4000) here) = false) ∧
    ((Instr.adcAbsX 0x3FF0).entry = ⟨.read .adc, .absolute .x⟩ ∧ isMapped (operandAddr (.adcAbsX 0x3FF0) here) = false ∧
      operandCrosses (.adcAbsX 0x3FF0) here = true) ∧
    ((Instr.styAbs 0x7FFF).entry = ⟨.store .sty, .absolute .noIndex⟩ ∧ isMapped (operandAddr (.styAbs 0x7FFF) here) = false) ∧
    ((Instr.staAbsY 0x7FEF).entry = ⟨.store .sta, .absolute .y⟩ ∧ isMapped (operandAddr (.staAbsY 0x7FEF) here) = false) := by decide

/-- The state after an undefined opcode. -/
theorem witness_HaltedCpuNeverChanges :
    (after doomed).halt = some (haltRecord (.undefinedOpcode 0x02 0x8000)
      { doomed with pc := 0x8001, tx := ⟨0x8000, 0x02, .read⟩, t := 48 }) := by decide

/-- The 13th master tick ends halted. -/
theorem witness_HostRunStopsAtAHalt :
    (runTicks (12 + 1) doomed).halt ≠ none := by decide

/-- The last address of the RAM window, in canonical RAM. -/
theorem witness_RamWriteIsReadThroughEveryMirror :
    State.reset.ram.wf = true ∧ (0x1FFF : Addr).toNat < 0x2000 := by decide

/-- The four ranges at their ends. -/
theorem witness_AddressDecoderFollowsTheMap :
    (0x1FFF : Addr).toNat < 0x2000 ∧ (0x2000 ≤ (0x2000 : Addr).toNat ∧ (0x3FFF : Addr).toNat < 0x4000) ∧
    (0x4000 ≤ (0x4000 : Addr).toNat ∧ (0x7FFF : Addr).toNat < 0x8000) ∧ 0x8000 ≤ (0x8000 : Addr).toNat := by decide

/-- The unmapped range and program storage at their ends. -/
theorem witness_UnwritableAddressesDropTheWrite :
    (0x4000 ≤ (0x4000 : Addr).toNat ∧ (0x7FFF : Addr).toNat < 0x8000) ∧ 0x8000 ≤ (0x8000 : Addr).toNat ∧ 0x8000 ≤ (0xFFFF : Addr).toNat := by
  decide

/-- Two writings of one store. -/
theorem witness_CanonicalStoresAreEqualWhenTheyReadEqual :
    Memory.wf [(3, 0x22), (5, 0x11)] = true ∧ Memory.wf (Memory.write [(3, 0x22)] 5 0x11) = true ∧
    ∀ k, Memory.read [(3, 0x22), (5, 0x11)] k = Memory.read (Memory.write [(3, 0x22)] 5 0x11) k := ⟨by decide, by decide, fun _ => rfl⟩

/-- The first and the last alias of the status register. -/
theorem witness_StatusReadReturnsAndClearsVblank :
    (0x2000 ≤ (0x2002 : Addr).toNat ∧ (0x2002 : Addr).toNat < 0x4000 ∧ (0x2002 : Addr).toNat % 8 = 2) ∧
    (0x2000 ≤ (0x3FFA : Addr).toNat ∧ (0x3FFA : Addr).toNat < 0x4000 ∧ (0x3FFA : Addr).toNat % 8 = 2) := by decide

/-- The first and the last address of the bank, and a status address for the write. -/
theorem witness_PpuWritesAreLoggedAndOtherReadsAreZero :
    (0x2000 ≤ (0x2000 : Addr).toNat ∧ (0x2000 : Addr).toNat % 8 ≠ 2) ∧ ((0x3FFF : Addr).toNat < 0x4000 ∧ (0x3FFF : Addr).toNat % 8 ≠ 2) ∧
    (0x2000 ≤ (0x2002 : Addr).toNat ∧ (0x2002 : Addr).toNat < 0x4000) := by decide

/-- A step that tries to write program storage. -/
theorem witness_ProgramStorageAndParametersAreConstant :
    let s := ready [0x8D, 0x00, 0x80] (regsOf 0xAB 0 0 0)
    step s = .next (after s) := rfl

/-- An instruction that changes flags C, Z, N, V, and ones that change I and D. -/
theorem witness_OnlyTheListedInstructionsWriteAFlag :
    let s := ready [] (regsOf 0x80 0 0 0)
    let t := run (.adcImm 0x80) s
    exec (.adcImm 0x80) s = .next t ∧ t.regs.p.c ≠ s.regs.p.c ∧ t.regs.p.z ≠ s.regs.p.z ∧ t.regs.p.v ≠ s.regs.p.v ∧
    (run .sei s).regs.p.i ≠ s.regs.p.i ∧ (run .sed s).regs.p.d ≠ s.regs.p.d ∧ (run (.ldaImm 0x80) s).regs.p.n ≠ s.regs.p.n := ⟨rfl, by decide, by decide, by decide, by decide, by decide, by decide⟩

/-- Instructions that change each register. -/
theorem witness_OnlyTheDestinationRegisterChanges :
    let s := ready [] (regsOf 0x80 0x01 0 0)
    exec .txs s = .next (run .txs s) ∧ (run .txs s).regs.sp ≠ s.regs.sp ∧ (run (.ldaImm 1) s).regs.a ≠ s.regs.a ∧
    (run .inx s).regs.x ≠ s.regs.x ∧ (run .tay s).regs.y ≠ s.regs.y := ⟨rfl, by decide, by decide, by decide, by decide⟩

/-- An instruction that is not a store. -/
theorem witness_OnlyStoresChangeMemory :
    (∀ o, (Instr.inx).entry.cls ≠ .store o) ∧ exec .inx here = .next (run .inx here) ∧ isStatus 0x0000 = false := ⟨fun o h => (by cases h), rfl, by decide⟩

/-- A store to RAM and one to program storage, neither of which halts. -/
theorem witness_StoresChangeOnlyTheAddressedByte :
    (Instr.staAbs 0x0810).entry.cls = .store .sta ∧ here.ram.wf = true ∧
    exec (.staAbs 0x0810) here = .next (run (.staAbs 0x0810) here) ∧ here.halt = none ∧ (run (.staAbs 0x0810) here).halt = none ∧
    exec (.staAbs 0x8000) here = .next (run (.staAbs 0x8000) here) ∧ (run (.staAbs 0x8000) here).halt = none ∧ isStatus 0x0010 = false := ⟨rfl, by decide, rfl, by decide, by decide, rfl, by decide, by decide⟩

/-- An instruction that does not halt. -/
theorem witness_InstructionsTakeTheTicksOfTheTable :
    exec (.ldaAbsX 0x02F0) here = .next (run (.ldaAbsX 0x02F0) here) ∧ (run (.ldaAbsX 0x02F0) here).halt = none := ⟨rfl, by decide⟩

/-- A boundary of an indexed load across a page under `Fault`. -/
theorem witness_BusTrafficFollowsTheTable :
    let s := strict (ready [0xBD, 0xF0, 0x02] (regsOf 0 0x10 0 0))
    atBoundary s = true ∧ BusClear s ((busRow (fetchInstr s) s).map Prod.snd) := by decide

/-- Status reads whose Access tick is followed by the set dot, which the 14th PPU tick reaches: BIT absolute after four fetches (12 PPU
ticks), LDA absolute,X across a page after five (15, from three positions earlier). -/
theorem witness_VblankSetDuringAReadIsLost :
    let cfg := { Config.default with scanlines := 10, dots := 100, vblSetDot := 500 }
    let s := { here with cfg := cfg, ppu := ⟨486, false, false, false, []⟩ }
    let u := { here with cfg := cfg, ppu := ⟨483, false, false, false, []⟩ }
    let p := ppuRun s.cfg (busAddrs (cpuTicks (.bitAbs 0x2002) s - 2) (.bitAbs 0x2002) s) s.ppu
    let r := ppuRun u.cfg (busAddrs (cpuTicks (.ldaAbsX 0x1FFA) u - 2) (.ldaAbsX 0x1FFA) u) u.ppu
    ((Instr.bitAbs 0x2002).entry = ⟨.read .bit, .absolute .noIndex⟩ ∧ Ready s ∧ BusClear s [s.pc, s.pc + 1, s.pc + 2] ∧
      isStatus (operandAddr (.bitAbs 0x2002) s) = true ∧ p.vbl = false ∧ (ppuThree s.cfg p).vbl = true) ∧
    ((Instr.ldaAbsX 0x1FFA).entry = ⟨.read .lda, .absolute .x⟩ ∧ Ready u ∧ BusClear u [u.pc, u.pc + 1, u.pc + 2] ∧
      isStatus (operandAddr (.ldaAbsX 0x1FFA) u) = true ∧ operandCrosses (.ldaAbsX 0x1FFA) u = true ∧ r.vbl = false ∧
      (ppuThree u.cfg r).vbl = true) := by decide

/-- A ready state. -/
theorem witness_DecodeStepFetchesAtThePC :
    Ready here := by decide

/-- The canonical clock at ticks 36, 40 and 41. -/
theorem witness_MasterTickRunsTheUnitsInOrder :
    here.div = canonicalDiv ∧ here.t % 12 = 0 ∧ ({ here with t := 40 }.t % 12 ≠ 0 ∧ { here with t := 40 }.t % 4 = 0) ∧ { here with t := 41 }.t % 4 ≠ 0 := by decide

/-- A CPU tick due, also on a tick that will halt. -/
theorem witness_TwelveMasterTicksAreOneCpuTick :
    (here.div = canonicalDiv ∧ here.t % 12 = 0 ∧ here.halt = none) ∧
    (doomed.div = canonicalDiv ∧ doomed.t % 12 = 0 ∧ doomed.halt = none) := by decide

/-- A positive period, and 0 and -1. -/
theorem witness_RegistrationsFireInOrder :
    0 < 1 ∧ (0 : Int) ≤ 0 ∧ (-1 : Int) ≤ 0 := by decide

/-- The defaults: the last position, the one before the set dot, another. -/
theorem witness_PpuTickMovesAndLatches :
    let cfg := Config.default
    (0 < cfg.vblSetDot ∧ cfg.vblSetDot < cfg.frame) ∧ (89341 < cfg.frame ∧ 89341 + 1 = cfg.frame) ∧
    (82181 < cfg.frame ∧ 82181 + 1 = cfg.vblSetDot) ∧ 5 < cfg.frame := by decide

/-- The defaults. -/
theorem witness_PpuPositionAfterTicksFromPowerUp :
    0 < Config.default.vblSetDot ∧ Config.default.vblSetDot < Config.default.frame := by decide

/-- A step. -/
theorem witness_SpriteLatchesAreNeverChanged :
    let s := ready [0x8D, 0x05, 0x20] (regsOf 0xAB 0 0 0)
    step s = .next (after s) := rfl

end Sys2Proof.Tests
end

/-! PROOFS. The decode step (R133) and the bus step of its tick. -/

namespace Sys2Proof.Machine

/-- In the Decode state `clk` is the decode step (R130, R154). -/
theorem clk_ready {s : State} (hs : Ready s) : clk s = decodeStep s := by
  obtain ⟨hhalt, hq⟩ := hs
  simp only [clk, hhalt, hq]

/-- The decode step from an empty queue, field by field (R133). -/
theorem decodeStep_eq {s : State} (hq : s.q = []) :
    decodeStep s = { s with tx := ⟨s.pc, s.tx.data, .read⟩, pc := s.pc + 1, q := [.dispatch] } := by
  simp [decodeStep, enqueue, fetchOperand, txRead, setPc, setQ, setTx, hq]

/-- A read fetches the same byte after the decode step: it reaches none of the devices behind the bus. -/
@[simp] theorem peek_decodeStep (s : State) (a : Addr) : peek (decodeStep s) a = peek s a := rfl

/-- The bus step of a read fills the data byte under either policy: a halt it raises leaves the transaction alone (R73, R333). -/
theorem busStep_read_tx {s : State} {a : Addr} {d : Byte} (hx : s.tx = ⟨a, d, .read⟩) :
    (busStep s).tx = ⟨a, peek s a, .read⟩ := by
  have hresolve : (resolveTx s).tx = ⟨a, peek s a, .read⟩ := by
    simp [resolveTx, hx, memRead]
  unfold busStep
  split
  · rw [raiseHalt_eq, setHalt_tx, hresolve]
  · exact hresolve

/-- Settles O53: `clk` in the Decode state is `decodeStep`, and the bus step resolves the read it leaves, whether or not it halts. -/
theorem decodeStepFetchesAtThePC : Obligations.DecodeStepFetchesAtThePC := by
  intro s hs
  rw [clk_ready hs]
  have hstep := decodeStep_eq hs.2
  have hread : (decodeStep s).tx = ⟨s.pc, s.tx.data, .read⟩ := by rw [hstep]
  refine ⟨hstep, ?_⟩
  rw [busStep_read_tx hread, peek_decodeStep]

end Sys2Proof.Machine

/-! PROOFS. The schedules of the memory modes (R138-R146), and over them the loads, stores and transfers (R180-R191). Each form of
Safety.lean is proved once for every operation of its class and mode; an obligation names its instructions and their hooks. -/

namespace Sys2Proof.Machine

/-! ### Addresses on which nothing halts -/

/-- On a clear list of addresses, no single one of them can halt the CPU. -/
theorem BusClear.of_mem {s : State} {as : List Addr} (h : BusClear s as) {a : Addr} (ha : a ∈ as) :
    s.cfg.unmappedPolicy = .zero ∨ isMapped a = true :=
  h.imp_right fun hall => List.all_eq_true.mp hall a ha

/-- A zero-page address is RAM, so a bus step there never halts (R60, R66). -/
theorem isMapped_zext16 (z : Byte) : isMapped (zext16 z) = true := by
  have h : (zext16 z).toNat < 0x2000 := by have := toNat_zext16_lt z; omega
  simp [isMapped, decodeAddr, h]

/-! ### The ticks before the effective address -/

/-- Decode and Dispatch of an implied instruction: the hook runs in the second tick, which reads the opcode address again (R138). -/
theorem opened_implied {s : State} (hs : Ready s) (hc : BusClear s [s.pc]) (op : Byte) (o : ImpliedOp) (m : Mode) :
    opened op ⟨.implied o, m⟩ s =
      midway s (impliedHook o s.regs) (s.pc + 1) { s.scratch with op := op } [] [s.pc] s.pc := by
  have hpc := hc.of_mem (List.mem_singleton.mpr rfl)
  rw [opened, cycle_decodeStep hs hpc]
  exact cycle_midway hs.1 rfl hpc

/-- Decode and Dispatch of an instruction whose set-up queues `q` and fetches the byte after the opcode (R138). -/
theorem opened_fetching {s : State} (hs : Ready s) (hc : BusClear s [s.pc, s.pc + 1]) {op : Byte} {e : Entry} {q : List MicroOp}
    (hd : ∀ u, dispatch op e u = enqueue q (fetchOperand (setScratch { u.scratch with op := op } u))) :
    opened op e s = midway s s.regs (s.pc + 2) { s.scratch with op := op } q [s.pc] (s.pc + 1) := by
  have hpc : s.pc + 1 + 1 = s.pc + 2 := by rw [BitVec.add_assoc]; rfl
  rw [opened, cycle_decodeStep hs (hc.of_mem (by simp)), ← hpc]
  exact cycle_midway hs.1 (by rw [hd]; rfl) (hc.of_mem (by simp))

/-- Dispatch of a zero-page instruction (R138). -/
theorem dispatch_zeroPage {c : OpClass} (hc : OperandClass c) (op : Byte) (u : State) :
    dispatch op ⟨c, .zeroPage⟩ u = enqueue [.zpLo] (fetchOperand (setScratch { u.scratch with op := op } u)) := by
  obtain ⟨o, rfl⟩ | ⟨o, rfl⟩ := hc <;> rfl

/-- Dispatch of an absolute instruction (R138). -/
theorem dispatch_absolute {c : OpClass} (hc : OperandClass c) (op : Byte) (idx : Index) (u : State) :
    dispatch op ⟨c, .absolute idx⟩ u =
      enqueue [.absLo, .absHi idx] (fetchOperand (setScratch { u.scratch with op := op } u)) := by
  obtain ⟨o, rfl⟩ | ⟨o, rfl⟩ := hc <;> rfl

/-- The three ticks of a zero-page instruction that fix its effective address; its tail is queued (R139). -/
theorem zeroPage_addressed {s : State} (hs : Ready s) (hb : BusClear s [s.pc, s.pc + 1]) {c : OpClass} (hc : OperandClass c)
    (op z : Byte) :
    cycle (fun u => zpLo c z (popQ u)) (opened op ⟨c, .zeroPage⟩ s) =
      midway s s.regs (s.pc + 2) (scratchEa s op z (zext16 z)) (tailOps s.cfg c .noIndex false) [s.pc, s.pc + 1] (s.pc + 1) := by
  rw [opened_fetching hs hb (dispatch_zeroPage hc op)]
  exact cycle_midway hs.1 rfl (hb.of_mem (by simp))

/-- The four ticks of an absolute instruction that fix its effective address; its tail is queued (R140, R141). -/
theorem absolute_addressed {s : State} (hs : Ready s) (hb : BusClear s [s.pc, s.pc + 1, s.pc + 2]) {c : OpClass}
    (hc : OperandClass c) (op : Byte) (idx : Index) (a : Addr) :
    cycle (fun u => absHi c idx (hiByte a) (popQ u))
        (cycle (fun u => absLo (loByte a) (popQ u)) (opened op ⟨c, .absolute idx⟩ s)) =
      midway s s.regs (s.pc + 3) (scratchEa s op (loByte a) (indexedAddr a idx s.regs))
        (tailOps s.cfg c idx (indexCrosses a idx s.regs)) [s.pc, s.pc + 1, s.pc + 2] (s.pc + 2) := by
  have hpc : s.pc + 2 + 1 = s.pc + 3 := by rw [BitVec.add_assoc]; rfl
  have hb' : BusClear s [s.pc, s.pc + 1] := hb.imp_right fun h => by simp_all
  have hlo : cycle (fun u => absLo (loByte a) (popQ u)) (opened op ⟨c, .absolute idx⟩ s) =
      midway s s.regs (s.pc + 3) { s.scratch with op := op, lo := loByte a } [.absHi idx] [s.pc, s.pc + 1] (s.pc + 2) := by
    rw [opened_fetching hs hb' (dispatch_absolute hc op idx), ← hpc]
    exact cycle_midway hs.1 rfl (hb.of_mem (by simp))
  rw [hlo]
  refine cycle_midway hs.1 (d := busByte s [s.pc, s.pc + 1] (s.pc + 2)) ?_ (hb.of_mem (by simp))
  simp only [absHi, midway, popQ, setQ, setScratch, enqueue, ranReading, concat_hiByte_loByte, List.tail_cons, List.nil_append]

/-! ### The ticks after the effective address -/

/-- A penalty tick resolves the last read once more and changes nothing else (R143). -/
theorem runTail_penalty {s : State} (hs : s.halt = none) {last : Addr} (hb : s.cfg.unmappedPolicy = .zero ∨ isMapped last = true)
    (owed : Bool) (c : OpClass) (ms : List MicroOp) (r : Regs) (pc : Addr) (sc : Scratch) (reads : List Addr) :
    runTail c ((if owed then [.penalty] else []) ++ ms)
        (midway s r pc sc ((if owed then [.penalty] else []) ++ ms) reads last) =
      runTail c ms (midway s r pc sc ms (reads ++ if owed then [last] else []) last) := by
  cases owed with
  | false => simp
  | true => exact congrArg (runTail c ms) (cycle_midway hs rfl hb)

/-- Access and Commit: the effective address is read in both ticks, and the hook consumes the byte of the first (R144, R145). -/
theorem runTail_access_commit {s : State} (hs : Ready s) {sc : Scratch}
    (hb : s.cfg.unmappedPolicy = .zero ∨ isMapped sc.ea = true) (o : ReadOp) (r : Regs) (pc : Addr) (reads : List Addr) (last : Addr) :
    runTail (.read o) [.access, .commit] (midway s r pc sc [.access, .commit] reads last) =
      ranReading s (execHook o (busByte s (reads ++ [last]) sc.ea) r) pc sc (reads ++ [last] ++ [sc.ea]) sc.ea := by
  have haccess : cycle (fun v => tailOp (.read o) .access (popQ v)) (midway s r pc sc [.access, .commit] reads last) =
      midway s r pc sc [.commit] (reads ++ [last]) sc.ea := cycle_midway hs.1 rfl hb
  have hcommit : cycle (fun v => tailOp (.read o) .commit (popQ v)) (midway s r pc sc [.commit] (reads ++ [last]) sc.ea) =
      midway s (execHook o (busByte s (reads ++ [last]) sc.ea) r) pc sc [] (reads ++ [last] ++ [sc.ea]) sc.ea :=
    cycle_midway hs.1 rfl hb
  rw [← midway_end hs.2, ← hcommit, ← haccess]
  rfl

/-- The last tick of a store: if the act empties the queue and sets a write of `v` to `a`, the tick ends the instruction. -/
theorem cycle_midway_write {s : State} (hs : Ready s) {act : State → State} {pc : Addr} {c : Scratch} {q : List MicroOp}
    {reads : List Addr} {last a : Addr} {v : Byte}
    (hact : act (midway s s.regs pc c q reads last) = { midway s s.regs pc c [] reads last with tx := ⟨a, v, .write⟩ })
    (hb : s.cfg.unmappedPolicy = .zero ∨ isMapped a = true) :
    cycle act (midway s s.regs pc c q reads last) = ranStoring s pc c (reads ++ [last]) a v := by
  have hhalt : (midway s s.regs pc c q reads last).halt = none := hs.1
  rw [cycle_write (a := a) (v := v) hhalt (by rw [hact]; exact hs.1) (by rw [hact]) (by rw [hact]; exact hb),
    hact, midway_end hs.2]
  unfold memWrite ranStoring
  cases decodeAddr a with
  | ram o => simp [ranReading, setRam, Nat.mul_add, Nat.add_assoc]
  | ppu o => simp [ranReading, setPpu, ppuWrite, Nat.mul_add, Nat.add_assoc]
  | prg o => simp [ranReading, Nat.mul_add, Nat.add_assoc]
  | unmapped => simp [ranReading, Nat.mul_add, Nat.add_assoc]

/-- Store: the one tick that writes, with the register as it stands in that tick (R146). -/
theorem runTail_store {s : State} (hs : Ready s) {sc : Scratch}
    (hb : s.cfg.unmappedPolicy = .zero ∨ isMapped sc.ea = true) (o : StoreOp) (pc : Addr) (reads : List Addr) (last : Addr) :
    runTail (.store o) [.store] (midway s s.regs pc sc [.store] reads last) =
      ranStoring s pc sc (reads ++ [last]) sc.ea (storeSrc o s.regs) := by
  change cycle (fun v => tailOp (.store o) .store (popQ v)) _ = _
  exact cycle_midway_write hs rfl hb

/-! ### The index of an absolute form -/

/-- The value an absolute form adds to its address, as the forms of Safety.lean take it. -/
def indexByte : Index → Regs → Option Byte
  | .noIndex, _ => none
  | .x, r => some r.x
  | .y, r => some r.y

/-- The index a form names is the one the schedule adds (R141). -/
theorem indexedAddr_eq (a : Addr) (idx : Index) (r : Regs) : indexedAddr a idx r = a + zext16 ((indexByte idx r).getD 0) := by
  cases idx <;> rfl

theorem isSome_indexByte (idx : Index) (r : Regs) : (indexByte idx r).isSome = (idx != .noIndex) := by
  cases idx <;> rfl

/-- Without an index the effective address stays in the page of the operand, so the schedule need not ask for one (R141). -/
theorem indexCrosses_eq (a : Addr) (idx : Index) (r : Regs) : indexCrosses a idx r = (hiByte (indexedAddr a idx r) != hiByte a) := by
  cases idx with
  | noIndex => simp [indexCrosses, indexedAddr, indexValue]
  | x => rfl
  | y => rfl

/-- The reads of an absolute form before its data access, in the order the ticks make them. -/
theorem absoluteFetches_eq (s : State) (owed : Bool) :
    [s.pc, s.pc + 1, s.pc + 2] ++ (if owed then [s.pc + 2] else []) ++ [s.pc + 2] = absoluteFetches s owed := by
  cases owed <;> rfl

/-- What is clear for the fetches and the access of an absolute form is clear for the fetches. -/
theorem BusClear.fetches {s : State} {owed : Bool} {ea : Addr} (h : BusClear s (absoluteFetches s owed ++ [ea])) :
    BusClear s [s.pc, s.pc + 1, s.pc + 2] :=
  h.imp_right fun hall => by simp_all [absoluteFetches]

/-! ### The forms, for every operation of a class and mode -/

/-- An implied instruction that runs the hook of `o` has the form with the effect of that hook (R138). -/
theorem impliedForm {i : Instr} {op : Byte} {o : ImpliedOp} {m : Mode} {effect : Regs → Regs}
    (hrun : ∀ s, exec i s = .next (runImplied op o m s)) (hbytes : encode i = [op]) (heffect : impliedHook o = effect) :
    ImpliedForm i op effect := by
  subst heffect
  refine ⟨hbytes, fun s hs hb => ?_⟩
  rw [hrun, runImplied, opened_implied hs hb, midway_end hs.2]

/-- An immediate instruction commits its operand byte with the hook of `o` (R138, R145). -/
theorem immediateForm {i : Instr} {op m : Byte} {o : ReadOp} {effect : Byte → Regs → Regs}
    (hrun : ∀ s, exec i s = .next (runImmediate op o m s)) (hbytes : encode i = [op, m]) (heffect : execHook o = effect) :
    ImmediateForm i op m effect := by
  subst heffect
  refine ⟨hbytes, fun s hs hb => ?_⟩
  rw [hrun, runImmediate, opened_fetching hs hb (q := [.commit]) (fun _ => rfl), ← midway_end hs.2]
  exact congrArg _ (cycle_midway hs.1 rfl (hb.of_mem (by simp)))

/-- A zero-page read applies the hook of `o` to the byte at its address (R139, R142). -/
theorem zeroPageForm {i : Instr} {op z : Byte} {o : ReadOp} {effect : Byte → Regs → Regs}
    (hrun : ∀ s, exec i s = .next (runZeroPage op (.read o) z s)) (hbytes : encode i = [op, z]) (heffect : execHook o = effect) :
    ZeroPageForm i op z effect := by
  subst heffect
  refine ⟨hbytes, fun s hs hb => ?_⟩
  rw [hrun, runZeroPage, zeroPage_addressed hs hb (.inl ⟨o, rfl⟩)]
  exact congrArg _ (runTail_access_commit hs (.inr (isMapped_zext16 z)) o _ _ _ _)

/-- A zero-page store writes the source of `o` to its address (R139, R142). -/
theorem zeroPageStore {i : Instr} {op z : Byte} {o : StoreOp}
    (hrun : ∀ s, exec i s = .next (runZeroPage op (.store o) z s)) (hbytes : encode i = [op, z]) :
    ZeroPageStore i op z (storeSrc o) := by
  refine ⟨hbytes, fun s hs hb => ?_⟩
  rw [hrun, runZeroPage, zeroPage_addressed hs hb (.inr ⟨o, rfl⟩)]
  exact congrArg _ (runTail_store hs (.inr (isMapped_zext16 z)) o _ _ _)

/-- An absolute read applies the hook of `o` to the byte at its effective address, after a penalty tick where one is owed (R141, R142). -/
theorem absoluteForm {i : Instr} {op : Byte} {o : ReadOp} {a : Addr} {effect : Byte → Regs → Regs} (idx : Index)
    (hrun : ∀ s, exec i s = .next (runAbsolute op (.read o) idx a s)) (hbytes : encode i = [op, loByte a, hiByte a])
    (heffect : execHook o = effect) : AbsoluteForm i op a (indexByte idx) effect := by
  subst heffect
  refine ⟨hbytes, fun s hs hb => ?_⟩
  have hfetches := hb.fetches
  rw [hrun, runAbsolute, absolute_addressed hs hfetches (.inl ⟨o, rfl⟩), tailOps,
    runTail_penalty hs.1 (hfetches.of_mem (by simp)), runTail_access_commit hs (hb.of_mem (by simp [indexedAddr_eq])),
    absoluteFetches_eq, indexCrosses_eq, indexedAddr_eq]

/-- An absolute store writes the source of `o` to its effective address, after a penalty tick where one is owed (R141, R142). -/
theorem absoluteStore {i : Instr} {op : Byte} {o : StoreOp} {a : Addr} (idx : Index)
    (hrun : ∀ s, exec i s = .next (runAbsolute op (.store o) idx a s)) (hbytes : encode i = [op, loByte a, hiByte a]) :
    AbsoluteStore i op a (indexByte idx) (storeSrc o) := by
  refine ⟨hbytes, fun s hs hb => ?_⟩
  have hfetches := hb.fetches
  rw [hrun, runAbsolute, absolute_addressed hs hfetches (.inr ⟨o, rfl⟩), tailOps,
    runTail_penalty hs.1 (hfetches.of_mem (by simp)), runTail_store hs (hb.of_mem (by simp [indexedAddr_eq])),
    absoluteFetches_eq, isSome_indexByte, indexedAddr_eq]

/-! ### Loads, stores, transfers -/

/-- `SetNZ` is the setting of Z and N that the statements name (R25). -/
theorem setNZ_eq_withNZ (v : Byte) (p : Flags) : setNZ v p = withNZ v p := by
  simp [setNZ, setFlag, withNZ, BitVec.msb_eq_getLsbD_last, beq_eq_decide]

/-- Settles O15: the hook of LDA on each of its five schedules (R180). -/
theorem ldaLoadsTheAccumulator : Obligations.LdaLoadsTheAccumulator := by
  unfold Obligations.LdaLoadsTheAccumulator
  intro effect
  have heffect : execHook .lda = effect := by
    funext m r
    simp only [execHook, hookLda, setNZ_eq_withNZ, effect]
  exact ⟨fun _ => immediateForm (fun _ => rfl) rfl heffect, fun _ => zeroPageForm (fun _ => rfl) rfl heffect,
    fun _ => absoluteForm .noIndex (fun _ => rfl) rfl heffect, fun _ => absoluteForm .x (fun _ => rfl) rfl heffect,
    fun _ => absoluteForm .y (fun _ => rfl) rfl heffect⟩

/-- Settles O16: the hook of LDX on each of its four schedules (R181). -/
theorem ldxLoadsX : Obligations.LdxLoadsX := by
  unfold Obligations.LdxLoadsX
  intro effect
  have heffect : execHook .ldx = effect := by
    funext m r
    simp only [execHook, hookLdx, setNZ_eq_withNZ, effect]
  exact ⟨fun _ => immediateForm (fun _ => rfl) rfl heffect, fun _ => zeroPageForm (fun _ => rfl) rfl heffect,
    fun _ => absoluteForm .noIndex (fun _ => rfl) rfl heffect, fun _ => absoluteForm .y (fun _ => rfl) rfl heffect⟩

/-- Settles O17: the hook of LDY on each of its four schedules (R182). -/
theorem ldyLoadsY : Obligations.LdyLoadsY := by
  unfold Obligations.LdyLoadsY
  intro effect
  have heffect : execHook .ldy = effect := by
    funext m r
    simp only [execHook, hookLdy, setNZ_eq_withNZ, effect]
  exact ⟨fun _ => immediateForm (fun _ => rfl) rfl heffect, fun _ => zeroPageForm (fun _ => rfl) rfl heffect,
    fun _ => absoluteForm .noIndex (fun _ => rfl) rfl heffect, fun _ => absoluteForm .x (fun _ => rfl) rfl heffect⟩

/-- Settles O18: `A` as the source on each of the four store schedules (R183). -/
theorem staStoresTheAccumulator : Obligations.StaStoresTheAccumulator :=
  ⟨fun _ => zeroPageStore (o := .sta) (fun _ => rfl) rfl, fun _ => absoluteStore (o := .sta) .noIndex (fun _ => rfl) rfl,
    fun _ => absoluteStore (o := .sta) .x (fun _ => rfl) rfl, fun _ => absoluteStore (o := .sta) .y (fun _ => rfl) rfl⟩

/-- Settles O19: `X` and `Y` as the source on the two store schedules without an index (R184, R185). -/
theorem stxAndStyStoreTheIndexRegisters : Obligations.StxAndStyStoreTheIndexRegisters :=
  ⟨fun _ => zeroPageStore (o := .stx) (fun _ => rfl) rfl, fun _ => absoluteStore (o := .stx) .noIndex (fun _ => rfl) rfl,
    fun _ => zeroPageStore (o := .sty) (fun _ => rfl) rfl, fun _ => absoluteStore (o := .sty) .noIndex (fun _ => rfl) rfl⟩

/-- Settles O20: the hook of each transfer on the implied schedule; that of TXS has no `SetNZ` (R186-R191). -/
theorem transfersCopyOneRegister : Obligations.TransfersCopyOneRegister := by
  have htax : impliedHook .tax = fun r => { r with x := r.a, p := withNZ r.a r.p } := by
    funext r; simp only [impliedHook, hookTax, setNZ_eq_withNZ]
  have htay : impliedHook .tay = fun r => { r with y := r.a, p := withNZ r.a r.p } := by
    funext r; simp only [impliedHook, hookTay, setNZ_eq_withNZ]
  have htxa : impliedHook .txa = fun r => { r with a := r.x, p := withNZ r.x r.p } := by
    funext r; simp only [impliedHook, hookTxa, setNZ_eq_withNZ]
  have htya : impliedHook .tya = fun r => { r with a := r.y, p := withNZ r.y r.p } := by
    funext r; simp only [impliedHook, hookTya, setNZ_eq_withNZ]
  have htsx : impliedHook .tsx = fun r => { r with x := r.sp, p := withNZ r.sp r.p } := by
    funext r; simp only [impliedHook, hookTsx, setNZ_eq_withNZ]
  exact ⟨impliedForm (fun _ => rfl) rfl htax, impliedForm (fun _ => rfl) rfl htay, impliedForm (fun _ => rfl) rfl htxa,
    impliedForm (fun _ => rfl) rfl htya, impliedForm (fun _ => rfl) rfl htsx,
    impliedForm (o := .txs) (fun _ => rfl) rfl rfl⟩

end Sys2Proof.Machine

/-! PROOFS. The flag computations and the shifts of 42_alu.md as the statements say them, in the integers and bit by bit, and over
them the arithmetic, logic, compare, bit test, count and shift instructions (R222, R224-R238). -/

namespace Sys2Proof.Machine

/-! ### Bits of a byte -/

/-- Masking with 0x80 tests bit 7. -/
theorem and_0x80_ne_zero (v : Byte) : (v &&& 0x80 != 0) = v.getLsbD 7 := by
  have h80 : (0x80 : Byte) = BitVec.twoPow 8 7 := rfl
  rw [h80, BitVec.and_twoPow]
  cases v.getLsbD 7 <;> rfl

/-- The bit ASL and ROL shift out is set from 128 on (R235, R237). -/
theorem getLsbD_seven_eq_decide (v : Byte) : v.getLsbD 7 = decide (128 ≤ v.toNat) :=
  (BitVec.msb_eq_getLsbD_last v).symm.trans (BitVec.msb_eq_decide v)

/-- The bit LSR and ROR shift out is the parity (R236, R238). -/
theorem getLsbD_zero_eq_decide (v : Byte) : v.getLsbD 0 = decide (v.toNat % 2 = 1) :=
  Nat.testBit_zero v.toNat

/-! ### The flag computations -/

/-- The overflow formula says that the operands agree in bit 7 and the result does not (R222). -/
theorem sumOverflow_eq (a m r : Byte) :
    sumOverflow a m r = ((a.getLsbD 7 == m.getLsbD 7) && (r.getLsbD 7 != a.getLsbD 7)) := by
  rw [sumOverflow, and_0x80_ne_zero, BitVec.getLsbD_and, BitVec.getLsbD_xor, BitVec.getLsbD_xor]
  cases a.getLsbD 7 <;> cases m.getLsbD 7 <;> cases r.getLsbD 7 <;> rfl

/-- The flags of a sum with carry, beside Z and N (R222). -/
theorem setSumFlags_eq (a m : Byte) (cin : Nat) (p : Flags) :
    setSumFlags a m cin p = { p with
      c := decide (sumWide a m cin > 255)
      v := (a.getLsbD 7 == m.getLsbD 7) && ((sumByte a m cin).getLsbD 7 != a.getLsbD 7) } := by
  rw [setSumFlags, sumOverflow_eq]
  rfl

/-- The flags of a compare (R227). -/
theorem setCompareFlags_eq (v m : Byte) (p : Flags) :
    setCompareFlags v m p = { p with c := decide (m.toNat ≤ v.toNat), z := decide (v = m), n := (v - m).getLsbD 7 } := by
  rw [setCompareFlags, BitVec.msb_eq_getLsbD_last, beq_eq_decide]
  rfl

/-- The flags of a bit test (R230). -/
theorem setBitFlags_eq (a m : Byte) (p : Flags) :
    setBitFlags a m p = { p with z := decide (a &&& m = 0), v := m.getLsbD 6, n := m.getLsbD 7 } := by
  rw [setBitFlags, beq_eq_decide]
  rfl

/-! ### The arithmetic of counts, shifts and rotates -/

/-- Counting up is modulo 256 (R231, R232). -/
theorem add_one_eq (v : Byte) : v + 1 = BitVec.ofNat 8 ((v.toNat + 1) % 256) :=
  BitVec.eq_of_toNat_eq (by simp)

/-- Counting down is modulo 256 (R233, R234). -/
theorem sub_one_eq (v : Byte) : v - 1 = BitVec.ofNat 8 ((v.toNat + 255) % 256) :=
  BitVec.eq_of_toNat_eq (by simp [BitVec.toNat_sub, Nat.add_comm])

/-- A shift left doubles (R235). -/
theorem shiftLeft_one_eq (v : Byte) : v <<< 1 = BitVec.ofNat 8 (v.toNat * 2) :=
  BitVec.eq_of_toNat_eq (by simp [Nat.shiftLeft_eq])

/-- A shift right halves (R236). -/
theorem ushiftRight_one_eq (v : Byte) : v >>> 1 = BitVec.ofNat 8 (v.toNat / 2) :=
  BitVec.eq_of_toNat_eq (by rw [BitVec.toNat_ushiftRight, BitVec.toNat_ofNat, Nat.shiftRight_one]; omega)

/-- The carry comes in as 0 or 1 (R237, R238). -/
theorem carryByte_eq (p : Flags) : carryByte p = BitVec.ofNat 8 p.c.toNat := by
  cases h : p.c <;> simp [carryByte, h]

/-- A rotate left doubles and adds the old carry, which comes in at a bit the shift left clear (R237). -/
theorem shiftLeft_one_or_carry (v : Byte) (p : Flags) :
    v <<< 1 ||| carryByte p = BitVec.ofNat 8 (v.toNat * 2 + p.c.toNat) := by
  have hdisjoint : v <<< 1 &&& carryByte p = 0#8 := by
    ext i hi
    cases hc : p.c with
    | false => simp [carryByte, hc]
    | true => simpa [carryByte, hc] using fun h _ => h
  rw [← BitVec.add_eq_or_of_and_eq_zero _ _ hdisjoint, shiftLeft_one_eq, carryByte_eq, BitVec.ofNat_add]

/-- A rotate right halves and adds the old carry at bit 7, which the shift left clear (R238). -/
theorem carry_or_ushiftRight_one (v : Byte) (p : Flags) :
    carryByte p <<< 7 ||| v >>> 1 = BitVec.ofNat 8 (v.toNat / 2 + 128 * p.c.toNat) := by
  have hcarry : carryByte p <<< 7 = BitVec.ofNat 8 (128 * p.c.toNat) := by
    cases hc : p.c <;> simp [carryByte, hc]
  have hdisjoint : carryByte p <<< 7 &&& v >>> 1 = 0#8 := by
    ext i hi
    simp only [BitVec.getElem_and, BitVec.getElem_shiftLeft, BitVec.getElem_ushiftRight, BitVec.getElem_zero]
    by_cases h : i < 7
    · simp [h]
    · rw [BitVec.getLsbD_of_ge v (1 + i) (by omega), Bool.and_false]
  rw [← BitVec.add_eq_or_of_and_eq_zero _ _ hdisjoint, ushiftRight_one_eq, hcarry, ← BitVec.ofNat_add, Nat.add_comm]

/-! ### Arithmetic, logic, compare, bit test -/

/-- Settles O21: the hook of ADC on each of its five schedules; `D` is not read (R221, R222). -/
theorem adcAddsWithCarry : Obligations.AdcAddsWithCarry := by
  unfold Obligations.AdcAddsWithCarry
  intro effect
  have heffect : execHook .adc = effect := by
    funext m r
    simp only [execHook, hookAdc, setNZ_eq_withNZ, setSumFlags_eq]
    rfl
  exact ⟨fun _ => immediateForm (fun _ => rfl) rfl heffect, fun _ => zeroPageForm (fun _ => rfl) rfl heffect,
    fun _ => absoluteForm .noIndex (fun _ => rfl) rfl heffect, fun _ => absoluteForm .x (fun _ => rfl) rfl heffect,
    fun _ => absoluteForm .y (fun _ => rfl) rfl heffect⟩

/-- Settles O23: the hooks of AND, ORA and EOR, each on its five schedules (R224-R226). -/
theorem logicOperationsCombineWithA : Obligations.LogicOperationsCombineWithA := by
  unfold Obligations.LogicOperationsCombineWithA
  intro andE oraE eorE
  have hand : execHook .and = andE := by
    funext m r
    simp only [execHook, hookAnd, setNZ_eq_withNZ, andE]
  have hora : execHook .ora = oraE := by
    funext m r
    simp only [execHook, hookOra, setNZ_eq_withNZ, oraE]
  have heor : execHook .eor = eorE := by
    funext m r
    simp only [execHook, hookEor, setNZ_eq_withNZ, eorE]
  exact ⟨
    fun _ => ⟨immediateForm (fun _ => rfl) rfl hand,
      immediateForm (fun _ => rfl) rfl hora,
      immediateForm (fun _ => rfl) rfl heor⟩,
    fun _ => ⟨zeroPageForm (fun _ => rfl) rfl hand,
      zeroPageForm (fun _ => rfl) rfl hora,
      zeroPageForm (fun _ => rfl) rfl heor⟩,
    fun _ => ⟨absoluteForm .noIndex (fun _ => rfl) rfl hand,
      absoluteForm .noIndex (fun _ => rfl) rfl hora,
      absoluteForm .noIndex (fun _ => rfl) rfl heor⟩,
    fun _ => ⟨absoluteForm .x (fun _ => rfl) rfl hand,
      absoluteForm .x (fun _ => rfl) rfl hora,
      absoluteForm .x (fun _ => rfl) rfl heor⟩,
    fun _ => ⟨absoluteForm .y (fun _ => rfl) rfl hand,
      absoluteForm .y (fun _ => rfl) rfl hora,
      absoluteForm .y (fun _ => rfl) rfl heor⟩⟩

/-- Settles O24: the hook of CMP on five schedules, those of CPX and CPY on three (R227-R229). -/
theorem comparesSetCarryZeroNegative : Obligations.ComparesSetCarryZeroNegative := by
  unfold Obligations.ComparesSetCarryZeroNegative
  intro compare cmpE cpxE cpyE
  have hcmp : execHook .cmp = cmpE := by
    funext m r
    simp only [execHook, hookCmp, setCompareFlags_eq, cmpE, compare]
  have hcpx : execHook .cpx = cpxE := by
    funext m r
    simp only [execHook, hookCpx, setCompareFlags_eq, cpxE, compare]
  have hcpy : execHook .cpy = cpyE := by
    funext m r
    simp only [execHook, hookCpy, setCompareFlags_eq, cpyE, compare]
  exact ⟨
    fun _ => ⟨immediateForm (fun _ => rfl) rfl hcmp,
      immediateForm (fun _ => rfl) rfl hcpx,
      immediateForm (fun _ => rfl) rfl hcpy⟩,
    fun _ => ⟨zeroPageForm (fun _ => rfl) rfl hcmp,
      zeroPageForm (fun _ => rfl) rfl hcpx,
      zeroPageForm (fun _ => rfl) rfl hcpy⟩,
    fun _ => ⟨absoluteForm .noIndex (fun _ => rfl) rfl hcmp,
      absoluteForm .noIndex (fun _ => rfl) rfl hcpx,
      absoluteForm .noIndex (fun _ => rfl) rfl hcpy⟩,
    fun _ => absoluteForm .x (fun _ => rfl) rfl hcmp,
    fun _ => absoluteForm .y (fun _ => rfl) rfl hcmp⟩

/-- Settles O25: the hook of BIT on its two schedules (R230). -/
theorem bitTestsTheMemoryByte : Obligations.BitTestsTheMemoryByte := by
  unfold Obligations.BitTestsTheMemoryByte
  intro effect
  have heffect : execHook .bit = effect := by
    funext m r
    simp only [execHook, hookBit, setBitFlags_eq, effect]
  exact ⟨fun _ => zeroPageForm (fun _ => rfl) rfl heffect, fun _ => absoluteForm .noIndex (fun _ => rfl) rfl heffect⟩

/-! ### Counts and shifts -/

/-- Settles O26: the hook of each count on the implied schedule (R231-R234). -/
theorem indexRegistersCountModulo256 : Obligations.IndexRegistersCountModulo256 := by
  unfold Obligations.IndexRegistersCountModulo256
  intro up down
  have hinx : impliedHook .inx = fun r => { r with x := up r.x, p := withNZ (up r.x) r.p } := by
    funext r; simp only [impliedHook, hookInx, setNZ_eq_withNZ, add_one_eq, up]
  have hiny : impliedHook .iny = fun r => { r with y := up r.y, p := withNZ (up r.y) r.p } := by
    funext r; simp only [impliedHook, hookIny, setNZ_eq_withNZ, add_one_eq, up]
  have hdex : impliedHook .dex = fun r => { r with x := down r.x, p := withNZ (down r.x) r.p } := by
    funext r; simp only [impliedHook, hookDex, setNZ_eq_withNZ, sub_one_eq, down]
  have hdey : impliedHook .dey = fun r => { r with y := down r.y, p := withNZ (down r.y) r.p } := by
    funext r; simp only [impliedHook, hookDey, setNZ_eq_withNZ, sub_one_eq, down]
  exact ⟨impliedForm (fun _ => rfl) rfl hinx, impliedForm (fun _ => rfl) rfl hiny, impliedForm (fun _ => rfl) rfl hdex,
    impliedForm (fun _ => rfl) rfl hdey⟩

/-- Settles O27: the hook of each shift on the implied schedule, its result and the bit shifted out in the integers (R235-R238). -/
theorem shiftsMoveOneBitThroughCarry : Obligations.ShiftsMoveOneBitThroughCarry := by
  unfold Obligations.ShiftsMoveOneBitThroughCarry
  intro shifted
  have hasl : impliedHook .asl = fun r => shifted (r.a.toNat * 2) (decide (128 ≤ r.a.toNat)) r := by
    funext r
    simp only [impliedHook, hookAsl, setNZ_eq_withNZ, shiftLeft_one_eq, getLsbD_seven_eq_decide, setFlag, shifted]
  have hlsr : impliedHook .lsr = fun r => shifted (r.a.toNat / 2) (decide (r.a.toNat % 2 = 1)) r := by
    funext r
    simp only [impliedHook, hookLsr, setNZ_eq_withNZ, ushiftRight_one_eq, getLsbD_zero_eq_decide, setFlag, shifted]
  have hrol : impliedHook .rol = fun r => shifted (r.a.toNat * 2 + r.p.c.toNat) (decide (128 ≤ r.a.toNat)) r := by
    funext r
    simp only [impliedHook, hookRol, setNZ_eq_withNZ, shiftLeft_one_or_carry, getLsbD_seven_eq_decide, setFlag, shifted]
  have hror : impliedHook .ror = fun r => shifted (r.a.toNat / 2 + 128 * r.p.c.toNat) (decide (r.a.toNat % 2 = 1)) r := by
    funext r
    simp only [impliedHook, hookRor, setNZ_eq_withNZ, carry_or_ushiftRight_one, getLsbD_zero_eq_decide, setFlag, shifted]
  exact ⟨impliedForm (fun _ => rfl) rfl hasl, impliedForm (fun _ => rfl) rfl hlsr, impliedForm (fun _ => rfl) rfl hrol,
    impliedForm (fun _ => rfl) rfl hror⟩

end Sys2Proof.Machine

/-! PROOFS. The schedules of the branches and of JMP (R138, R147-R149), and over them the instructions of 43_control_and_flags.md
(R280-R297). -/

namespace Sys2Proof.Machine

/-! ### The schedule of a branch -/

/-- BranchCheck on a condition that fails: the offset byte is read once more, and nothing is queued (R147). -/
theorem cycle_branchCheck_untaken {s : State} (hs : s.halt = none) (o : BranchOp) (off : Byte) {pc last : Addr}
    {c : Scratch} {reads : List Addr} (hb : s.cfg.unmappedPolicy = .zero ∨ isMapped last = true)
    (hcond : branchCond o s.regs.p = false) :
    cycle (fun u => branchCheck (.branch o) off (popQ u)) (midway s s.regs pc c [.branchCheck] reads last) =
      midway s s.regs pc c [] (reads ++ [last]) last := by
  refine cycle_midway hs (d := busByte s reads last) ?_ hb
  simp [branchCheck, popQ, setQ, midway, ranReading, hcond]

/-- BranchCheck on a condition that holds: the target is kept in the scratch record, and BranchTake is queued, with a penalty where the
target lies in another page than `PC` (R147). -/
theorem cycle_branchCheck_taken {s : State} (hs : s.halt = none) (o : BranchOp) (off : Byte) {pc last : Addr}
    {c : Scratch} {reads : List Addr} (hb : s.cfg.unmappedPolicy = .zero ∨ isMapped last = true)
    (hcond : branchCond o s.regs.p = true) :
    cycle (fun u => branchCheck (.branch o) off (popQ u)) (midway s s.regs pc c [.branchCheck] reads last) =
      midway s s.regs pc { c with target := branchTarget pc off }
        (.branchTake :: if crossesPage (branchTarget pc off) pc && s.cfg.branchPagePenalty then [.penalty] else [])
        (reads ++ [last]) last := by
  refine cycle_midway hs (d := busByte s reads last) ?_ hb
  simp [branchCheck, popQ, setQ, setScratch, enqueue, midway, ranReading, hcond]

/-- BranchTake and the penalty tick, where one is owed: `PC` becomes the target, and each tick resolves the last read once more
(R143, R148). -/
theorem cycle_branchTake_penalty {s : State} (hs : s.halt = none) {pc last : Addr} {c : Scratch} {reads : List Addr}
    (hb : s.cfg.unmappedPolicy = .zero ∨ isMapped last = true) (owed : Bool) :
    let taken := cycle (fun u => branchTake (popQ u))
      (midway s s.regs pc c (.branchTake :: if owed then [.penalty] else []) reads last)
    (if owed then cycle popQ taken else taken) =
      midway s s.regs c.target c [] (reads ++ [last] ++ if owed then [last] else []) last := by
  intro taken
  have htaken : taken = midway s s.regs c.target c (if owed then [.penalty] else []) (reads ++ [last]) last :=
    cycle_midway hs rfl hb
  rw [htaken]
  cases owed with
  | false => simp
  | true => exact cycle_midway hs rfl hb

/-- A branch on the condition of `o` has the branch form (R138, R147, R148, R280). -/
theorem branchForm {i : Instr} {op off : Byte} {o : BranchOp} (hrun : ∀ s, exec i s = .next (runBranch op o off s))
    (hbytes : encode i = [op, off]) : BranchForm i op off (branchCond o) := by
  refine ⟨hbytes, fun s hs hb => ?_⟩
  have hlast := hb.of_mem (a := s.pc + 1) (by simp)
  intro next target c
  rw [hrun, runBranch, opened_fetching hs hb (q := [.branchCheck]) (fun _ => rfl)]
  cases hcond : branchCond o s.regs.p with
  | false =>
    rw [cycle_branchCheck_untaken hs.1 o off hlast hcond, midway_end hs.2]
    rfl
  | true =>
    rw [cycle_branchCheck_taken hs.1 o off hlast hcond]
    refine congrArg _ ((cycle_branchTake_penalty hs.1 hlast _).trans ?_)
    rw [midway_end hs.2]
    rfl

/-- Settles O28: the branch schedule with the condition of each of the eight (R280-R288). -/
theorem branchesGoToTheSignedOffset : Obligations.BranchesGoToTheSignedOffset := fun _ =>
  ⟨branchForm (o := .bpl) (fun _ => rfl) rfl, branchForm (o := .bmi) (fun _ => rfl) rfl,
    branchForm (o := .bvc) (fun _ => rfl) rfl, branchForm (o := .bvs) (fun _ => rfl) rfl,
    branchForm (o := .bcc) (fun _ => rfl) rfl, branchForm (o := .bcs) (fun _ => rfl) rfl,
    branchForm (o := .bne) (fun _ => rfl) rfl, branchForm (o := .beq) (fun _ => rfl) rfl⟩

/-! ### The schedule of JMP -/

/-- The four ticks of JMP: the two fetches of the operand, and JmpHi, which reads the last byte once more (R138, R140, R149). -/
theorem runJump_eq {s : State} (hs : Ready s) (hb : BusClear s [s.pc, s.pc + 1, s.pc + 2]) (op : Byte) (a : Addr) :
    runJump op a s =
      ranReading s s.regs a { s.scratch with op := op, lo := loByte a } [s.pc, s.pc + 1, s.pc + 2] (s.pc + 2) := by
  have hfirst : BusClear s [s.pc, s.pc + 1] := hb.imp_right fun h => by simp_all
  have hlast := hb.of_mem (a := s.pc + 2) (by simp)
  have hlo : cycle (fun u => absLo (loByte a) (popQ u)) (opened op ⟨.jump, .absolute .noIndex⟩ s) =
      midway s s.regs (s.pc + 2 + 1) { s.scratch with op := op, lo := loByte a } [.jmpHi] [s.pc, s.pc + 1] (s.pc + 2) := by
    rw [opened_fetching hs hfirst (q := [.absLo, .jmpHi]) (fun _ => rfl)]
    exact cycle_midway hs.1 rfl hlast
  rw [runJump, hlo, ← midway_end hs.2]
  refine cycle_midway hs.1 (d := busByte s [s.pc, s.pc + 1] (s.pc + 2)) ?_ hlast
  simp only [jmpHi, popQ, setQ, setPc, midway, ranReading, concat_hiByte_loByte, List.tail_cons]

/-- Settles O29: the jump schedule with the operand of JMP (R289). -/
theorem jmpSetsTheProgramCounter : Obligations.JmpSetsTheProgramCounter := fun a =>
  ⟨rfl, fun _ hs hb => congrArg _ (runJump_eq hs hb 0x4C a)⟩

/-! ### Flag instructions, NOP -/

/-- Settles O30: the hook of each is one `setFlag`, on the implied schedule (R290-R296). -/
theorem flagInstructionsWriteOneFlag : Obligations.FlagInstructionsWriteOneFlag :=
  ⟨impliedForm (o := .clc) (fun _ => rfl) rfl rfl, impliedForm (o := .sec) (fun _ => rfl) rfl rfl,
    impliedForm (o := .cli) (fun _ => rfl) rfl rfl, impliedForm (o := .sei) (fun _ => rfl) rfl rfl,
    impliedForm (o := .clv) (fun _ => rfl) rfl rfl, impliedForm (o := .cld) (fun _ => rfl) rfl rfl,
    impliedForm (o := .sed) (fun _ => rfl) rfl rfl⟩

/-- Settles O31: the hook of NOP is the identity, on the implied schedule (R297). -/
theorem nopOnlyAdvances : Obligations.NopOnlyAdvances := impliedForm (o := .nop) (fun _ => rfl) rfl rfl

end Sys2Proof.Machine

/-! PROOFS. Decoding and encoding (30_encoding.md §1-§3): the decoder on the bytes of an instruction, the encoder on what is decoded. -/

namespace Sys2Proof

/-! ### Entries and lengths -/

/-- The number of bytes of an instruction is its length (R101). -/
theorem encode_length (i : Instr) : (encode i).length = i.length := by
  cases i <;> rfl

theorem Instr.one_le_length (i : Instr) : 1 ≤ i.length := i.entry.mode.one_le_length

theorem Instr.length_le_three (i : Instr) : i.length ≤ 3 := i.entry.mode.length_le_three

/-- The opcode byte alone selects the entry (R100). -/
theorem entry_decodeBytes (op b1 b2 : Byte) : (decodeBytes op b1 b2).entry = tableEntry op := by
  unfold tableEntry decodeBytes
  split <;> rfl

/-- The entries named Undefined are those off the opcode map, read off the 256 rows (R105, R106). -/
theorem cls_tableEntry_eq_undef_iff : ∀ op : Byte, (tableEntry op).cls = .undef ↔ isAdmitted op = false := by
  decide

theorem cls_eq_undef_iff (i : Instr) : i.entry.cls = .undef ↔ ∃ op, i = .undefined op := by
  cases i <;> simp [Instr.entry]

/-! ### Bytes to instruction and back -/

/-- The bytes of what is decoded are the bytes it was decoded from, as many as its length (R100, R101). -/
theorem encode_decodeBytes (op b1 b2 : Byte) :
    encode (decodeBytes op b1 b2) = [op, b1, b2].take (decodeBytes op b1 b2).length := by
  have hop : ∀ n : Nat, op.toNat = n → op = BitVec.ofNat 8 n := by
    rintro n rfl
    simp
  unfold decodeBytes
  split
  case h_91 => rfl
  all_goals
    rename_i hn
    simp [hop _ hn, encode, Instr.length, Instr.entry, Mode.length]

/-- A byte decodes as undefined exactly when it is off the map (R106). -/
theorem decodeBytes_eq_undefined_iff (op b1 b2 : Byte) : decodeBytes op b1 b2 = .undefined op ↔ isAdmitted op = false := by
  rw [← cls_tableEntry_eq_undef_iff, ← entry_decodeBytes op b1 b2, cls_eq_undef_iff]
  refine ⟨fun h => ⟨op, h⟩, fun ⟨op', h⟩ => ?_⟩
  have hbytes := encode_decodeBytes op b1 b2
  rw [h] at hbytes ⊢
  exact congrArg _ (List.head_eq_of_cons_eq hbytes)

/-- What is decoded is well formed (R106). -/
theorem wf_decodeBytes (op b1 b2 : Byte) : (decodeBytes op b1 b2).wf = true := by
  have hbytes := encode_decodeBytes op b1 b2
  have hundef := decodeBytes_eq_undefined_iff op b1 b2
  cases hi : decodeBytes op b1 b2 with
  | undefined op' =>
    rw [hi] at hbytes hundef
    obtain rfl : op' = op := List.head_eq_of_cons_eq hbytes
    simpa [Instr.wf] using hundef
  | _ => rfl

/-- The first bytes being those of a well-formed instruction, it is what is decoded, whatever bytes follow (R100-R102, R104). -/
theorem decodeBytes_eq_of_encode {i : Instr} (hwf : i.wf = true) {op b1 b2 : Byte}
    (h : encode i = [op, b1, b2].take i.length) : decodeBytes op b1 b2 = i := by
  cases i with
  | undefined op' =>
    obtain rfl : op' = op := List.head_eq_of_cons_eq h
    exact (decodeBytes_eq_undefined_iff op' b1 b2).mpr (by simpa [Instr.wf] using hwf)
  | ldaAbs a | ldaAbsX a | ldaAbsY a | ldxAbs a | ldxAbsY a | ldyAbs a | ldyAbsX a | staAbs a | staAbsX a | staAbsY a
  | stxAbs a | styAbs a | adcAbs a | adcAbsX a | adcAbsY a | sbcAbs a | sbcAbsX a | sbcAbsY a | andAbs a | andAbsX a
  | andAbsY a | oraAbs a | oraAbsX a | oraAbsY a | eorAbs a | eorAbsX a | eorAbsY a | cmpAbs a | cmpAbsX a | cmpAbsY a
  | cpxAbs a | cpyAbs a | bitAbs a | jmp a =>
    cases h
    conv_rhs => rw [← concat_hiByte_loByte a]
    rfl
  | _ =>
    cases h
    rfl

/-- The bytes the decoder looks at, past the end of the list read as 0, are those of the list as far as an instruction reaches. -/
theorem take_getD {n : Nat} (op : Byte) (rest : List Byte) (hn : n ≤ 3) (hlen : n ≤ rest.length + 1) :
    [op, rest.getD 0 0, rest.getD 1 0].take n = (op :: rest).take n := by
  match rest, n with
  | _, 0 => rfl
  | _, 1 => rfl
  | b :: _, 2 => rfl
  | b :: c :: _, 3 => rfl
  | [], n + 2 => simp at hlen
  | [b], n + 3 => simp at hlen
  | _ :: _ :: _, n + 4 => omega

/-- The decoder on a list that holds the whole instruction (R100, R108). -/
theorem decode_cons_eq {op : Byte} {rest : List Byte} {i : Instr} (hi : decodeBytes op (rest.getD 0 0) (rest.getD 1 0) = i)
    (hlen : i.length ≤ rest.length + 1) : decode (op :: rest) = .instr i ((op :: rest).drop i.length) := by
  obtain ⟨n, hn⟩ := Nat.exists_eq_add_of_le' i.one_le_length
  simp only [decode, hi, hn, if_neg (Nat.not_lt.mpr (hn ▸ hlen)), Nat.add_sub_cancel, List.drop_succ_cons]

/-! ### The statements -/

/-- Settles O1: the decoder sees the instruction's own bytes, and passes over as many as they are. -/
theorem decodeOfEncodeIsTheInstruction : Obligations.DecodeOfEncodeIsTheInstruction := by
  intro i rest hwf
  have hlen := encode_length i
  obtain ⟨op, tail, hbytes⟩ : ∃ op tail, encode i = op :: tail :=
    List.exists_cons_of_length_pos (hlen ▸ i.one_le_length)
  have hle : i.length ≤ (tail ++ rest).length + 1 := by
    rw [← hlen, hbytes]
    simp
  have hi : decodeBytes op ((tail ++ rest).getD 0 0) ((tail ++ rest).getD 1 0) = i := by
    refine decodeBytes_eq_of_encode hwf ?_
    rw [take_getD op _ i.length_le_three hle, ← List.cons_append, ← hbytes, ← hlen, List.take_left]
  rw [hbytes, List.cons_append, decode_cons_eq hi hle, ← List.cons_append, ← hbytes, ← hlen, List.drop_left]

/-- Settles O2: the decoder answers the instruction of the first bytes and drops its length, which is no longer than the list. -/
theorem decodedBytesEncodeBack : Obligations.DecodedBytesEncodeBack := by
  intro bs i rest h
  cases bs with
  | nil => simp [decode] at h
  | cons op tail =>
    by_cases hlen : tail.length + 1 < (decodeBytes op (tail.getD 0 0) (tail.getD 1 0)).length
    · simp only [decode, if_pos hlen, reduceCtorEq] at h
    · rw [decode_cons_eq rfl (Nat.not_lt.mp hlen)] at h
      cases h
      refine ⟨?_, wf_decodeBytes _ _ _, encode_length _⟩
      rw [encode_decodeBytes, take_getD _ _ (Instr.length_le_three _) (Nat.not_lt.mp hlen), List.take_append_drop]

/-- Settles O3: the decoder run on each list. -/
theorem wordsDecodeAsTheOpcodeMapSays : Obligations.WordsDecodeAsTheOpcodeMapSays := by
  unfold Obligations.WordsDecodeAsTheOpcodeMapSays
  decide

/-- Settles O4: the decoder and the table, by opcode byte, and the list of the map counted. -/
theorem tableIsUndefinedOffTheOpcodeMap : Obligations.TableIsUndefinedOffTheOpcodeMap :=
  ⟨fun op b1 b2 => ⟨decodeBytes_eq_undefined_iff op b1 b2, cls_tableEntry_eq_undef_iff op⟩, rfl, by decide⟩

end Sys2Proof

/-! PROOFS. Memory, devices and bus (20_memory.md, 60_exceptions.md §5): the address decoder in the integers, reads after writes, and
what a bus step can do. -/

namespace Sys2Proof.Machine

/-! ### The address decoder -/

theorem decodeAddr_ram {a : Addr} (h : a.toNat < 0x2000) : decodeAddr a = .ram (a.toNat % 2048) := by
  have hand : (a &&& 0x07FF).toNat = a.toNat % 2048 := by
    rw [BitVec.toNat_and]
    exact Nat.and_two_pow_sub_one_eq_mod a.toNat 11
  rw [decodeAddr, if_pos h, hand]

theorem decodeAddr_ppu {a : Addr} (h : 0x2000 ≤ a.toNat) (h' : a.toNat < 0x4000) :
    decodeAddr a = .ppu (BitVec.ofNat 3 (a.toNat % 8)) := by
  have hlow : a.extractLsb' 0 3 = BitVec.ofNat 3 (a.toNat % 8) :=
    BitVec.eq_of_toNat_eq (by simp)
  rw [decodeAddr, if_neg (Nat.not_lt.mpr h), if_pos h', hlow]

theorem decodeAddr_unmapped {a : Addr} (h : 0x4000 ≤ a.toNat) (h' : a.toNat < 0x8000) : decodeAddr a = .unmapped := by
  rw [decodeAddr, if_neg (by omega), if_neg (Nat.not_lt.mpr h), if_pos h']

theorem decodeAddr_prg {a : Addr} (h : 0x8000 ≤ a.toNat) : decodeAddr a = .prg (a.toNat - 0x8000) := by
  have hsub : (a - 0x8000).toNat = a.toNat - 0x8000 := by
    have := a.isLt
    rw [BitVec.toNat_sub, show (0x8000 : Addr).toNat = 0x8000 from rfl]
    omega
  rw [decodeAddr, if_neg (by omega), if_neg (by omega), if_neg (Nat.not_lt.mpr h), hsub]

/-- The four ranges of the map (R62), with what is selected in each. -/
theorem decodeAddr_cases (a : Addr) :
    (a.toNat < 0x2000 ∧ decodeAddr a = .ram (a.toNat % 2048)) ∨
    (0x2000 ≤ a.toNat ∧ a.toNat < 0x4000 ∧ decodeAddr a = .ppu (BitVec.ofNat 3 (a.toNat % 8))) ∨
    (0x4000 ≤ a.toNat ∧ a.toNat < 0x8000 ∧ decodeAddr a = .unmapped) ∨
    (0x8000 ≤ a.toNat ∧ decodeAddr a = .prg (a.toNat - 0x8000)) := by
  by_cases h1 : a.toNat < 0x2000
  · exact .inl ⟨h1, decodeAddr_ram h1⟩
  · by_cases h2 : a.toNat < 0x4000
    · exact .inr (.inl ⟨Nat.not_lt.mp h1, h2, decodeAddr_ppu (Nat.not_lt.mp h1) h2⟩)
    · by_cases h3 : a.toNat < 0x8000
      · exact .inr (.inr (.inl ⟨Nat.not_lt.mp h2, h3, decodeAddr_unmapped (Nat.not_lt.mp h2) h3⟩))
      · exact .inr (.inr (.inr ⟨Nat.not_lt.mp h3, decodeAddr_prg (Nat.not_lt.mp h3)⟩))

theorem isMapped_eq_false_iff {a : Addr} : isMapped a = false ↔ decodeAddr a = .unmapped := by
  simp [isMapped]

/-- Settles O40: the four ranges of the map. -/
theorem addressDecoderFollowsTheMap : Obligations.AddressDecoderFollowsTheMap :=
  fun _ => ⟨decodeAddr_ram, decodeAddr_ppu, decodeAddr_unmapped, decodeAddr_prg⟩

/-! ### Byte stores -/

theorem Memory.eq_of_read_eq {m n : Memory} {lo : Nat} (hm : Memory.wfFrom lo m = true) (hn : Memory.wfFrom lo n = true)
    (h : ∀ k, m.read k = n.read k) : m = n := by
  induction m generalizing lo n with
  | nil =>
    cases n with
    | nil => rfl
    | cons d n =>
      obtain ⟨k, b⟩ := d
      have hk := h k
      simp_all [Memory.wfFrom, Memory.read_cons]
  | cons c m ih =>
    obtain ⟨k, b⟩ := c
    have hm' := hm
    simp only [Memory.wfFrom, Bool.and_eq_true, decide_eq_true_eq, bne_iff_ne] at hm'
    obtain ⟨⟨hlo, hb⟩, htail⟩ := hm'
    cases n with
    | nil => exact absurd (h k) (by simpa [Memory.read_cons] using hb)
    | cons d n =>
      obtain ⟨k', b'⟩ := d
      have hn' := hn
      simp only [Memory.wfFrom, Bool.and_eq_true, decide_eq_true_eq, bne_iff_ne] at hn'
      obtain ⟨⟨hlo', hb'⟩, htail'⟩ := hn'
      have hk := h k
      have hk' := h k'
      simp only [Memory.read_cons, if_true] at hk hk'
      obtain hlt | rfl | hgt := Nat.lt_trichotomy k k'
      · rw [if_neg (by omega), Memory.read_of_lt htail' (by omega)] at hk
        exact absurd hk hb
      · simp only [if_true] at hk
        subst hk
        have htails : ∀ j, Memory.read m j = Memory.read n j := by
          intro j
          obtain hj | hj := Nat.lt_or_ge k j
          · simpa [Memory.read_cons, Nat.ne_of_lt hj] using h j
          · rw [Memory.read_of_lt htail (by omega), Memory.read_of_lt htail' (by omega)]
        rw [ih htail htail' htails]
      · rw [if_neg (by omega), Memory.read_of_lt htail (by omega)] at hk'
        exact absurd hk'.symm hb'

/-- Settles O42: the first pair of each list is the least offset that reads other than the unlisted value. -/
theorem canonicalStoresAreEqualWhenTheyReadEqual : Obligations.CanonicalStoresAreEqualWhenTheyReadEqual :=
  fun _ _ => Memory.eq_of_read_eq

/-! ### Reads and writes of the devices -/

/-- A read at the status register is the only one with a side effect (R78). -/
theorem readEffect_of_not_isStatus {a : Addr} {s : State} (h : isStatus a = false) : readEffect a s = s := by
  rw [readEffect_eq, ppuAfterRead, if_neg (by simp [h])]
  rfl

theorem isStatus_eq_false_of_decodeAddr {a : Addr} (h : decodeAddr a ≠ .ppu 2) : isStatus a = false := by
  simpa [isStatus] using h

/-- Outside RAM a read does not depend on RAM. -/
theorem peek_setRam {s : State} {a : Addr} (m : Memory) (h : 0x2000 ≤ a.toNat) : peek (setRam m s) a = peek s a := by
  obtain ⟨hlt, -⟩ | ⟨-, -, hd⟩ | ⟨-, -, hd⟩ | ⟨-, hd⟩ := decodeAddr_cases a
  · exact absurd hlt (Nat.not_lt.mpr h)
  all_goals simp only [peek, hd, setRam_ppu, setRam_cfg]

/-- A read after a RAM write: the value at the four aliases, and every other address as before (R63, R68). -/
theorem peek_memWrite_ram {s : State} {a : Addr} (hwf : s.ram.wf = true) (ha : a.toNat < 0x2000) (b : Addr) (v : Byte) :
    peek (memWrite a v s) b = if b.toNat < 0x2000 ∧ b.toNat % 2048 = a.toNat % 2048 then v else peek s b := by
  have hwrite : memWrite a v s = setRam (s.ram.write (a.toNat % 2048) v) s := by
    rw [memWrite, decodeAddr_ram ha]
  rw [hwrite]
  by_cases hb : b.toNat < 0x2000
  · simp only [peek, decodeAddr_ram hb, setRam_ram, Memory.read_write hwf, hb, true_and]
  · rw [peek_setRam _ (Nat.not_lt.mp hb), if_neg (fun h => hb h.1)]

/-- Settles O39: the decoder gives the four aliases one offset of the store. -/
theorem ramWriteIsReadThroughEveryMirror : Obligations.RamWriteIsReadThroughEveryMirror := by
  intro s a b v hwf ha
  have hd := decodeAddr_ram ha
  refine ⟨?_, peek_memWrite_ram hwf ha b v⟩
  rw [memRead, readEffect_of_not_isStatus (isStatus_eq_false_of_decodeAddr (by simp [hd])), peek, hd]

/-- Settles O41: neither range selects a device that takes a write or has a side effect. -/
theorem unwritableAddressesDropTheWrite : Obligations.UnwritableAddressesDropTheWrite := by
  intro s a v ha
  obtain h | h := Nat.lt_or_ge a.toNat 0x8000
  · have hd := decodeAddr_unmapped ha h
    exact ⟨by simp [memWrite, hd], by simp [memRead, readEffect, hd], fun _ => by simp [memRead, peek, hd], fun h' => by omega⟩
  · have hd := decodeAddr_prg h
    exact ⟨by simp [memWrite, hd], by simp [memRead, readEffect, hd], fun h' => by omega,
      fun _ => by simp [memRead, peek, hd, prgByte, Config.prgLen]⟩

/-- The status byte in the integers (R355). -/
theorem toNat_statusByte (p : Ppu) :
    (statusByte p).toNat = 128 * p.vbl.toNat + 64 * p.s0hit.toNat + 32 * p.sovf.toNat := by
  unfold statusByte
  cases p.vbl <;> cases p.s0hit <;> cases p.sovf <;> rfl

/-- The addresses of the status register (R67, R78). -/
theorem isStatus_of_mod {a : Addr} (h : 0x2000 ≤ a.toNat) (h' : a.toNat < 0x4000) (hmod : a.toNat % 8 = 2) :
    isStatus a = true := by
  rw [isStatus, decodeAddr_ppu h h', hmod]
  rfl

/-- Settles O43: every mirror of it is the status register. -/
theorem statusReadReturnsAndClearsVblank : Obligations.StatusReadReturnsAndClearsVblank := by
  intro s a h h' hmod
  have hstatus := isStatus_of_mod h h' hmod
  refine ⟨?_, ?_⟩
  · rw [memRead, peek_status hstatus, toNat_statusByte]
  · rw [memRead, readEffect_eq, ppuAfterRead, if_pos hstatus]
    rfl

/-- Settles O44: the decoder gives the register's number; a read takes the branch of R356, a write that of R357. -/
theorem ppuWritesAreLoggedAndOtherReadsAreZero : Obligations.PpuWritesAreLoggedAndOtherReadsAreZero := by
  intro s a v h h'
  have hd := decodeAddr_ppu h h'
  refine ⟨fun hmod => ?_, by rw [memWrite, hd]; rfl⟩
  have hne : BitVec.ofNat 3 (a.toNat % 8) ≠ 2 := by
    intro heq
    have := congrArg BitVec.toNat heq
    simp at this
    omega
  rw [memRead, readEffect_of_not_isStatus (isStatus_eq_false_of_decodeAddr (by simpa [hd] using hne)), peek, hd]
  exact congrArg (·, s) (if_neg hne)

/-! ### What a bus step can do -/

/-- A write changes RAM or appends to the PPU's log, by the device (R62-R66, R357). -/
theorem memWrite_frame (a : Addr) (v : Byte) (s : State) :
    ∃ m l, memWrite a v s = { s with ram := m, ppu := { s.ppu with log := s.ppu.log ++ l } } := by
  unfold memWrite
  cases decodeAddr a with
  | ram o => exact ⟨_, [], by rw [List.append_nil]; rfl⟩
  | ppu o => exact ⟨s.ram, _, rfl⟩
  | prg o => exact ⟨s.ram, [], by rw [List.append_nil]⟩
  | unmapped => exact ⟨s.ram, [], by rw [List.append_nil]⟩

/-- A transaction fills its data byte, changes RAM, clears `vbl` or appends to the log (R73). -/
theorem resolveTx_frame (s : State) :
    ∃ d m b l, resolveTx s =
      { s with tx := { s.tx with data := d }, ram := m, ppu := { s.ppu with vbl := b, log := s.ppu.log ++ l } } := by
  unfold resolveTx
  cases s.tx.dir with
  | read =>
    refine ⟨peek s s.tx.addr, s.ram, (ppuAfterRead s.tx.addr s.ppu).vbl, [], ?_⟩
    simp only [memRead, readEffect_eq, ppuAfterRead, List.append_nil]
    split <;> rfl
  | write =>
    obtain ⟨m, l, h⟩ := memWrite_frame s.tx.addr s.tx.data s
    exact ⟨s.tx.data, m, s.ppu.vbl, l, h⟩

@[simp] theorem resolveTx_halt (s : State) : (resolveTx s).halt = s.halt := by
  obtain ⟨d, m, b, l, h⟩ := resolveTx_frame s
  rw [h]

/-- The halt of a bus step is raised on the state that the transaction leaves, and raising it changes the halt element alone. -/
theorem busStep_eq_setHalt (s : State) : busStep s = setHalt (busStep s).halt (resolveTx s) := by
  unfold busStep
  simp only [raiseHalt_eq]
  split
  · rfl
  · rfl

@[simp] theorem busStep_ram (s : State) : (busStep s).ram = (resolveTx s).ram := by
  rw [busStep_eq_setHalt]
  rfl

/-- A bus step clears `vbl` or appends to the log; the position and the sprite latches stay (R353). -/
theorem busStep_ppu (s : State) : ∃ b l, (busStep s).ppu = { s.ppu with vbl := b, log := s.ppu.log ++ l } := by
  obtain ⟨d, m, b, l, h⟩ := resolveTx_frame s
  rw [busStep_eq_setHalt, h]
  exact ⟨b, l, rfl⟩

/-- A bus step on which nothing halts the CPU is the transaction (R66). -/
theorem busStep_of_clear {s : State} (h : s.cfg.unmappedPolicy = .zero ∨ isMapped s.tx.addr = true) : busStep s = resolveTx s := by
  rw [busStep]
  exact if_neg fun hf => by rcases h with h | h <;> simp_all

/-- A transaction at an unmapped address reads 0 or drops the write (R66). -/
theorem resolveTx_unmapped {s : State} (h : isMapped s.tx.addr = false) :
    resolveTx s = setTx { s.tx with data := if s.tx.dir = .read then 0x00 else s.tx.data } s := by
  have hd := isMapped_eq_false_iff.mp h
  unfold resolveTx
  cases hdir : s.tx.dir with
  | read => simp [memRead, peek, readEffect, hd]
  | write =>
    simp only [memWrite, hd, reduceCtorEq, if_false]
    rfl

/-- A bus step at an unmapped address under `Fault`: the transaction, then the halt (R333). -/
theorem busStep_fault {s : State} (h : isMapped s.tx.addr = false) (hp : s.cfg.unmappedPolicy = .fault) :
    busStep s = raiseHalt (.unmappedAccess s.tx.addr s.tx.dir) (resolveTx s) := by
  rw [busStep]
  exact if_pos ⟨h, hp⟩

/-- A halted CPU keeps its record through a bus step (R334). -/
theorem busStep_halt_of_halted {s : State} {r : HaltRecord} (h : s.halt = some r) : (busStep s).halt = some r := by
  unfold busStep
  split
  · simp [raiseHalt_eq, h]
  · simp [h]

/-- Settles O33: the transaction reads 0 or drops the write; the halt is raised under `Fault`, and dropped by a CPU that has halted. -/
theorem unmappedBusStepHaltsOnlyUnderFault : Obligations.UnmappedBusStepHaltsOnlyUnderFault := by
  intro s hm x
  have hx : resolveTx s = setTx x s := resolveTx_unmapped hm
  refine ⟨fun hp => ?_, fun hp hn => ?_, fun r hr => ?_⟩
  · rw [busStep_of_clear (.inl hp), hx]
    rfl
  · rw [busStep_fault hm hp, hx, raiseHalt_eq, setTx_halt, hn]
    rfl
  · rw [busStep_eq_setHalt, busStep_halt_of_halted hr, hx, ← hr]
    rfl

/-- Settles O34: no halt is raised at a mapped address, and a transaction leaves the halt element. -/
theorem mappedBusStepRaisesNoHalt : Obligations.MappedBusStepRaisesNoHalt := by
  intro s hm
  rw [busStep_of_clear (.inr hm), resolveTx_halt]

/-- A bus step after which the CPU still runs was at an address that does not halt it (R66, R333). -/
theorem clear_of_busStep_running {s : State} (h : (busStep s).halt = none) :
    s.halt = none ∧ (s.cfg.unmappedPolicy = .zero ∨ isMapped s.tx.addr = true) := by
  have hrun : s.halt = none := by
    cases hs : s.halt with
    | none => rfl
    | some r => simp [busStep_halt_of_halted hs] at h
  refine ⟨hrun, ?_⟩
  cases hm : isMapped s.tx.addr with
  | true => exact .inr rfl
  | false =>
    cases hp : s.cfg.unmappedPolicy with
    | zero => exact .inl rfl
    | fault => simp [busStep_fault hm hp, raiseHalt_eq] at h

end Sys2Proof.Machine

/-! PROOFS. The scheduler and the clock driver (40_scheduler.md §1, 60_exceptions.md §1, §3, §4): what a tick can do, twelve master ticks
as one CPU tick, and the PPU's own ticks. -/

namespace Sys2Proof.Machine

/-! ### What a micro-operation and `clk` can do -/

/-- A micro-operation changes the CPU's own fields at most: no memory, no PPU, no clock (R136-R149, R401). -/
def CpuOnly (s u : State) : Prop :=
  ∃ r a q c h x, u = { s with regs := r, pc := a, q := q, scratch := c, halt := h, tx := x }

theorem setup_cpuOnly (e : Entry) (s : State) : CpuOnly s (setup e s) := by
  unfold setup
  split
  · exact ⟨_, _, _, _, _, _, rfl⟩
  · exact ⟨_, _, _, _, _, _, rfl⟩
  · exact ⟨_, _, _, _, _, _, rfl⟩
  · exact ⟨_, _, _, _, _, _, rfl⟩
  · split <;> exact ⟨_, _, _, _, _, _, rfl⟩
  · split <;> exact ⟨_, _, _, _, _, _, rfl⟩

theorem dispatch_cpuOnly (op : Byte) (e : Entry) (s : State) : CpuOnly s (dispatch op e s) := by
  obtain ⟨r, a, q, c, h, x, hs⟩ := setup_cpuOnly e (setScratch { s.scratch with op := op } s)
  unfold dispatch
  simp only [raiseHalt_eq, hs]
  split <;> exact ⟨_, _, _, _, _, _, rfl⟩

theorem runMicroOp_cpuOnly (m : MicroOp) (s : State) : CpuOnly s (runMicroOp m s) := by
  cases m with
  | dispatch => exact dispatch_cpuOnly _ _ s
  | commit =>
    simp only [runMicroOp, commit]
    split <;> exact ⟨_, _, _, _, _, _, rfl⟩
  | store =>
    simp only [runMicroOp, store]
    split <;> exact ⟨_, _, _, _, _, _, rfl⟩
  | branchCheck =>
    simp only [runMicroOp, branchCheck]
    split
    · split <;> exact ⟨_, _, _, _, _, _, rfl⟩
    · exact ⟨_, _, _, _, _, _, rfl⟩
    · exact ⟨_, _, _, _, _, _, rfl⟩
    · exact ⟨_, _, _, _, _, _, rfl⟩
    · exact ⟨_, _, _, _, _, _, rfl⟩
    · exact ⟨_, _, _, _, _, _, rfl⟩
  | _ => exact ⟨_, _, _, _, _, _, rfl⟩

theorem clk_cpuOnly (s : State) : CpuOnly s (clk s) := by
  unfold clk
  split
  · exact ⟨_, _, _, _, _, _, rfl⟩
  · split
    · exact ⟨_, _, _, _, _, _, rfl⟩
    · exact runMicroOp_cpuOnly _ (popQ s)

@[simp] theorem clk_ram (s : State) : (clk s).ram = s.ram := by
  obtain ⟨r, a, q, c, h, x, e⟩ := clk_cpuOnly s; rw [e]
@[simp] theorem clk_ppu (s : State) : (clk s).ppu = s.ppu := by
  obtain ⟨r, a, q, c, h, x, e⟩ := clk_cpuOnly s; rw [e]
@[simp] theorem clk_t (s : State) : (clk s).t = s.t := by
  obtain ⟨r, a, q, c, h, x, e⟩ := clk_cpuOnly s; rw [e]
@[simp] theorem clk_div (s : State) : (clk s).div = s.div := by
  obtain ⟨r, a, q, c, h, x, e⟩ := clk_cpuOnly s; rw [e]
@[simp] theorem clk_cfg (s : State) : (clk s).cfg = s.cfg := by
  obtain ⟨r, a, q, c, h, x, e⟩ := clk_cpuOnly s; rw [e]

/-- A halted CPU does nothing (R132). -/
theorem clk_halted {s : State} {r : HaltRecord} (h : s.halt = some r) : clk s = s := by
  simp [clk, h]

/-- A running CPU with a micro-operation queued pops it and runs it (R130). -/
theorem clk_queued {s : State} {m : MicroOp} {ms : List MicroOp} (h : s.halt = none) (hq : s.q = m :: ms) :
    clk s = runMicroOp m (popQ s) := by
  simp [clk, h, hq]

/-! ### The master tick, under any registrations -/

/-- The state after the callbacks of a master tick, before the counter moves (R341). -/
def fired (s : State) : State := (firing s.t s.div).foldl (fun u c => runCallback c u) s

theorem masterTick_eq (s : State) : masterTick s = setT ((fired s).t + 1) (fired s) := rfl

/-- What the CPU's and the PPU's callback keep, the callbacks of a master tick keep: a host callback changes nothing (R345, log 11). -/
theorem fired_keeps {P : State → Prop} {s : State} (hcpu : ∀ u, P u → P (cpuBus u)) (hppu : ∀ u, P u → P (ppuStep u))
    (hs : P s) : P (fired s) := by
  unfold fired
  induction firing s.t s.div generalizing s with
  | nil => exact hs
  | cons c cs ih =>
    refine ih (s := runCallback c s) ?_
    cases c with
    | cpuBus => exact hcpu s hs
    | ppu => exact hppu s hs
    | host tag => exact hs

@[simp] theorem fired_t (s : State) : (fired s).t = s.t :=
  fired_keeps (P := fun u => u.t = s.t) (fun u h => by simpa [cpuBus] using h) (fun _ h => h) rfl

@[simp] theorem masterTick_t (s : State) : (masterTick s).t = s.t + 1 := by
  rw [masterTick_eq, setT_t, fired_t]

/-- No master tick changes the parameters or the registrations (R33, R36). -/
theorem masterTick_cfg_div (s : State) : (masterTick s).cfg = s.cfg ∧ (masterTick s).div = s.div :=
  fired_keeps (P := fun u => u.cfg = s.cfg ∧ u.div = s.div) (fun u h => by simpa [cpuBus] using h) (fun _ h => h) ⟨rfl, rfl⟩

/-- The sprite latches of two states agree, and the log of the second only adds to that of the first (R353). -/
def PpuGrows (s u : State) : Prop := u.ppu.s0hit = s.ppu.s0hit ∧ u.ppu.sovf = s.ppu.sovf ∧ s.ppu.log <+: u.ppu.log

theorem PpuGrows.refl (s : State) : PpuGrows s s := ⟨rfl, rfl, List.prefix_rfl⟩

theorem PpuGrows.trans {s u v : State} (h : PpuGrows s u) (h' : PpuGrows u v) : PpuGrows s v :=
  ⟨h'.1.trans h.1, h'.2.1.trans h.2.1, h.2.2.trans h'.2.2⟩

theorem busStep_ppuGrows (s : State) : PpuGrows s (busStep s) := by
  obtain ⟨b, l, h⟩ := busStep_ppu s
  unfold PpuGrows
  rw [h]
  exact ⟨rfl, rfl, List.prefix_append _ _⟩

theorem masterTick_ppuGrows (s : State) : PpuGrows s (masterTick s) := by
  refine fired_keeps (P := PpuGrows s) (fun u h => ?_) (fun _ h => h) (.refl s)
  refine h.trans ?_
  have hbus := busStep_ppuGrows (clk u)
  rwa [PpuGrows, clk_ppu] at hbus

/-- What a halted CPU keeps through a master tick. -/
def SameCpu (s u : State) : Prop :=
  u.halt = s.halt ∧ u.regs = s.regs ∧ u.pc = s.pc ∧ u.q = s.q ∧ u.scratch = s.scratch ∧ u.tx.addr = s.tx.addr ∧ u.tx.dir = s.tx.dir

/-- Settles O37: neither callback of the block touches the CPU of a halted state, and the bus step keeps its record (R334). -/
theorem haltedCpuNeverChanges : Obligations.HaltedCpuNeverChanges := by
  intro s r hr
  refine ⟨clk_halted hr, ?_⟩
  have hsame : SameCpu s (fired s) := by
    refine fired_keeps (P := SameCpu s) (fun u h => ?_) (fun _ h => h) ⟨rfl, rfl, rfl, rfl, rfl, rfl, rfl⟩
    have hu : u.halt = some r := h.1.trans hr
    unfold SameCpu
    rw [cpuBus, clk_halted hu, busStep_halt_of_halted hu, ← hr]
    simpa using h.2
  obtain ⟨hhalt, hregs, hpc, hq, hscratch, haddr, hdir⟩ := hsame
  exact ⟨hhalt.trans hr, hregs, hpc, hq, hscratch, haddr, hdir, masterTick_t s⟩

/-! ### The master tick under the canonical clock -/

/-- The callbacks of the canonical clock (R342, R344). -/
theorem firing_canonicalDiv (t : Nat) :
    firing t canonicalDiv = (if t % 12 = 0 then [.cpuBus] else []) ++ if t % 4 = 0 then [.ppu] else [] := by
  by_cases h : t % 12 = 0 <;> by_cases h' : t % 4 = 0 <;>
    simp [firing, canonicalDiv, cpuPeriod, ppuPeriod, h, h']

section
variable {s : State} (hd : s.div = canonicalDiv)
include hd

theorem masterTick_cpu (h : s.t % 12 = 0) : masterTick s = { ppuStep (busStep (clk s)) with t := s.t + 1 } := by
  have hfired : fired s = ppuStep (busStep (clk s)) := by
    rw [fired, hd, firing_canonicalDiv, if_pos h, if_pos (by omega)]
    rfl
  rw [masterTick_eq, fired_t, hfired]
  rfl

theorem masterTick_ppu (h : s.t % 12 ≠ 0) (h' : s.t % 4 = 0) : masterTick s = { ppuStep s with t := s.t + 1 } := by
  have hfired : fired s = ppuStep s := by
    rw [fired, hd, firing_canonicalDiv, if_neg h, if_pos h']
    rfl
  rw [masterTick_eq, fired_t, hfired]
  rfl

theorem masterTick_idle (h : s.t % 4 ≠ 0) : masterTick s = { s with t := s.t + 1 } := by
  have hfired : fired s = s := by
    rw [fired, hd, firing_canonicalDiv, if_neg (by omega), if_neg h]
    rfl
  rw [masterTick_eq, fired_t, hfired]
  rfl

end

/-- Settles O54: the callbacks whose period divides the tick, in registration order. -/
theorem masterTickRunsTheUnitsInOrder : Obligations.MasterTickRunsTheUnitsInOrder :=
  fun _ hd => ⟨masterTick_cpu hd, masterTick_ppu hd, masterTick_idle hd⟩

/-- Settles O56: `addPeriodic` appends on its one condition, and the callbacks that fire are a filter of the list. -/
theorem registrationsFireInOrder : Obligations.RegistrationsFireInOrder := by
  refine ⟨fun n c s hn => ?_, fun n c s hn => if_neg (by omega), fun t n c d => ?_⟩
  · rw [addPeriodic, if_pos (by omega)]
    rfl
  · by_cases h : t % n = 0 <;> simp [firing, h]

/-! ### Runs of master ticks -/

theorem runTicks_succ_running {n : Nat} {s : State} (h : (masterTick s).halt = none) :
    runTicks (n + 1) s = runTicks n (masterTick s) := by
  simp [runTicks, h]

theorem runTicks_succ_halted {n : Nat} {s : State} {r : HaltRecord} (h : (masterTick s).halt = some r) :
    runTicks (n + 1) s = masterTick s := by
  simp [runTicks, h]

/-- Settles O38: by induction on the ticks before the halt. -/
theorem hostRunStopsAtAHalt : Obligations.HostRunStopsAtAHalt := by
  intro n
  induction n with
  | zero =>
    intro m s h
    cases hh : (masterTick s).halt with
    | none => simp [runTicks, hh] at h
    | some r => rw [Nat.zero_add, Nat.add_comm, runTicks_succ_halted hh, runTicks_succ_halted hh]
  | succ n ih =>
    intro m s h
    rw [show n + 1 + 1 + m = (n + 1 + m) + 1 by omega]
    cases hh : (masterTick s).halt with
    | none =>
      rw [runTicks_succ_running hh] at h ⊢
      rw [runTicks_succ_running hh]
      exact ih m _ h
    | some r => rw [runTicks_succ_halted hh, runTicks_succ_halted hh]

/-- Ticks after a run that ends running go on from its end. -/
theorem runTicks_add {n m : Nat} {s : State} (h : (runTicks n s).halt = none) :
    runTicks (n + m) s = runTicks m (runTicks n s) := by
  induction n generalizing s with
  | zero => rw [Nat.zero_add]; rfl
  | succ n ih =>
    rw [Nat.add_right_comm]
    cases hh : (masterTick s).halt with
    | none =>
      rw [runTicks_succ_running hh] at h ⊢
      rw [runTicks_succ_running hh, ih h]
    | some r =>
      rw [runTicks_succ_halted hh] at h
      simp [hh] at h

/-- What every master tick keeps, a run of them keeps. -/
theorem runTicks_keeps {P : State → Prop} (hP : ∀ u, P u → P (masterTick u)) (n : Nat) {s : State} (hs : P s) :
    P (runTicks n s) := by
  induction n generalizing s with
  | zero => exact hs
  | succ n ih =>
    cases hh : (masterTick s).halt with
    | none => rw [runTicks_succ_running hh]; exact ih (hP s hs)
    | some r => rw [runTicks_succ_halted hh]; exact hP s hs

section
variable {s : State} (hd : s.div = canonicalDiv) (hrun : s.halt = none)
include hd hrun

/-- Three master ticks on which nothing fires. -/
theorem runTicks_three_idle (n : Nat) (h : s.t % 4 = 1) : runTicks (n + 3) s = runTicks n { s with t := s.t + 3 } := by
  have h1 : masterTick s = { s with t := s.t + 1 } := masterTick_idle hd (by omega)
  have h2 : masterTick { s with t := s.t + 1 } = { s with t := s.t + 2 } := masterTick_idle hd (by dsimp only; omega)
  have h3 : masterTick { s with t := s.t + 2 } = { s with t := s.t + 3 } := masterTick_idle hd (by dsimp only; omega)
  rw [runTicks_succ_running (by rw [h1]; exact hrun), h1, runTicks_succ_running (by rw [h2]; exact hrun), h2,
    runTicks_succ_running (by rw [h3]; exact hrun), h3]

/-- Four master ticks from one on which the PPU alone fires (R344). -/
theorem runTicks_ppu_four (n : Nat) (h : s.t % 12 ≠ 0) (h' : s.t % 4 = 0) :
    runTicks (n + 4) s = runTicks n { ppuStep s with t := s.t + 4 } := by
  have h1 : masterTick s = { ppuStep s with t := s.t + 1 } := masterTick_ppu hd h h'
  have h2 : runTicks (n + 3) { ppuStep s with t := s.t + 1 } = runTicks n { ppuStep s with t := s.t + 4 } :=
    runTicks_three_idle (s := { ppuStep s with t := s.t + 1 }) hd hrun n (by dsimp only; omega)
  rw [runTicks_succ_running (by rw [h1]; exact hrun), h1, h2]

end

/-- A CPU tick is due, under the canonical clock (R154, R344). -/
structure Due (s : State) : Prop where
  running : s.halt = none
  clock : s.div = canonicalDiv
  tick : s.t % 12 = 0

/-- Settles O55: the CPU, the bus and the PPU fire on the first of the twelve, the PPU alone on the fifth and the ninth. -/
theorem twelveMasterTicksAreOneCpuTick : Obligations.TwelveMasterTicksAreOneCpuTick := by
  intro s hd ht hrun
  have hfirst : masterTick s = { ppuStep (busStep (clk s)) with t := s.t + 1 } := masterTick_cpu hd ht
  have hdiv : (busStep (clk s)).div = canonicalDiv := by simpa using hd
  have htime : (busStep (clk s)).t = s.t := by simp
  rw [cycle_running hrun]
  generalize busStep (clk s) = u at hfirst hdiv htime ⊢
  cases hh : u.halt with
  | some r =>
    rw [finishTick_stopped hh, runTicks_succ_halted (r := r) (by rw [hfirst]; exact hh), hfirst, htime]
    rfl
  | none =>
    rw [finishTick_running hh, runTicks_succ_running (by rw [hfirst]; exact hh), hfirst,
      runTicks_three_idle (by exact hdiv) (by exact hh) 8 (by dsimp only; omega),
      runTicks_ppu_four (by exact hdiv) (by exact hh) 4 (by dsimp only; omega) (by dsimp only; omega),
      runTicks_ppu_four (by exact hdiv) (by exact hh) 0 (by dsimp only; omega) (by dsimp only; omega), htime]
    rfl

/-- Twelve master ticks from a due state (R344). -/
theorem Due.runTicks_twelve {s : State} (h : Due s) : runTicks 12 s = cycle clk s :=
  twelveMasterTicksAreOneCpuTick s h.clock h.tick h.running

/-- A CPU tick that ends running ends with the next one due. -/
theorem Due.cycle {s : State} (h : Due s) (hrun : (cycle clk s).halt = none) : Due (cycle clk s) := by
  have hbus : (busStep (clk s)).halt = none := by simpa [cycle_running h.running] using hrun
  refine ⟨hrun, by simpa [cycle_running h.running] using h.clock, ?_⟩
  rw [cycle_running h.running, finishTick_running hbus]
  have := h.tick
  simp only [busStep_t, clk_t]
  omega

theorem iterate_cycle_halted {act : State → State} {s : State} (h : s.halt ≠ none) (n : Nat) : (cycle act)^[n] s = s := by
  obtain ⟨r, hr⟩ := Option.ne_none_iff_exists'.mp h
  exact Function.iterate_fixed (cycle_halted hr) n

/-- Master ticks by the dozen are CPU ticks, the early stop at a halt included (R332, R344). -/
theorem Due.runTicks_dozens {s : State} (h : Due s) (n : Nat) : runTicks (12 * n) s = (Machine.cycle clk)^[n] s := by
  induction n generalizing s with
  | zero => rfl
  | succ n ih =>
    rw [show 12 * (n + 1) = 12 + 12 * n by omega, Function.iterate_succ_apply]
    by_cases hrun : (Machine.cycle clk s).halt = none
    · rw [runTicks_add (by rwa [h.runTicks_twelve]), h.runTicks_twelve, ih (h.cycle hrun)]
    · rw [iterate_cycle_halted hrun]
      have hstop := hostRunStopsAtAHalt 11 (12 * n) s (by rwa [h.runTicks_twelve])
      rw [hstop, h.runTicks_twelve]

/-! ### The PPU's own ticks -/

/-- Settles O57: the new position is in range, so the remainder is a test for the end of the frame. -/
theorem ppuTickMovesAndLatches : Obligations.PpuTickMovesAndLatches := by
  intro cfg p h0 hset hpos
  by_cases hwrap : p.pos + 1 = cfg.frame
  · simp [ppuTick, hwrap]
  · have hmod : (p.pos + 1) % cfg.frame = p.pos + 1 := Nat.mod_eq_of_lt (by omega)
    rw [if_neg hwrap, ppuTick, hmod]
    by_cases hdot : p.pos + 1 = cfg.vblSetDot <;> simp [hdot]
    omega

/-- Settles O58: by induction on the ticks; each moves the position by one and the set dot is passed where the position reaches it. -/
theorem ppuPositionAfterTicksFromPowerUp : Obligations.PpuPositionAfterTicksFromPowerUp := by
  intro cfg j h0 hset
  induction j with
  | zero => simp [Nat.zero_mod, Nat.not_le.mpr h0]
  | succ j ih =>
    have hpos : j % cfg.frame < cfg.frame := Nat.mod_lt _ (by omega)
    rw [Function.iterate_succ_apply', ih, ppuTickMovesAndLatches cfg _ h0 hset hpos]
    by_cases hwrap : j % cfg.frame + 1 = cfg.frame
    · have hmod : (j + 1) % cfg.frame = 0 := by rw [← Nat.mod_add_mod, hwrap, Nat.mod_self]
      simp [hwrap, hmod, Nat.ne_of_gt h0]
    · have hmod : (j + 1) % cfg.frame = j % cfg.frame + 1 := by
        rw [← Nat.mod_add_mod, Nat.mod_eq_of_lt (by omega)]
      rw [hmod]
      by_cases hdot : j % cfg.frame + 1 = cfg.vblSetDot
      · rw [if_neg hwrap, if_pos hdot, hdot, decide_eq_true (Nat.le_refl _)]
      · simp [hwrap, hdot]
        omega

/-! ### Construction and reset -/

/-- Settles O13: construction writes each element. -/
theorem constructionSetsThePowerUpValues : Obligations.ConstructionSetsThePowerUpValues :=
  fun _ _ => ⟨rfl, rfl, rfl, rfl, rfl, rfl, rfl, rfl, rfl⟩

end Sys2Proof.Machine

/-! PROOFS. The schedules against the scheduler (40_scheduler.md §1-§4): at each CPU tick of an instruction that still runs, `clk` does what the
schedule of its mode says, so a step is the master ticks of its row. -/

namespace Sys2Proof.Machine

/-! ### Ticks after which the CPU still runs -/

/-- A tick that ends running began running, its act halted on nothing, and its bus step was at an address that does not halt. -/
theorem running_of_cycle {act : State → State} {u : State} (h : (cycle act u).halt = none) :
    u.halt = none ∧ (act u).halt = none ∧ ((act u).cfg.unmappedPolicy = .zero ∨ isMapped (act u).tx.addr = true) := by
  cases hu : u.halt with
  | some r => simp [cycle_halted hu, hu] at h
  | none =>
    rw [cycle_running hu, finishTick_halt] at h
    exact ⟨rfl, clear_of_busStep_running h⟩

theorem cycle_congr {act act' : State → State} {u : State} (h : u.halt = none → act u = act' u) : cycle act u = cycle act' u := by
  cases hu : u.halt with
  | some r => rw [cycle_halted hu, cycle_halted hu]
  | none => rw [cycle_running hu, cycle_running hu, h hu]

/-- `u` is the state `m` inside an instruction, unless the CPU has halted before. -/
def Along (u m : State) : Prop := u.halt = none → u = m

/-- The decode tick, whatever is queued (R133). -/
theorem Along.decode (s : State) :
    Along (cycle decodeStep s) (midway s s.regs (s.pc + 1) s.scratch (s.q ++ [.dispatch]) [] s.pc) := by
  intro h
  obtain ⟨hs, -, hc⟩ := running_of_cycle h
  have hbyte : peek (decodeStep s) s.pc = busByte s [] s.pc := peek_midway (s := s) (reads := []) rfl rfl rfl _
  rw [cycle_read (a := s.pc) (d := s.tx.data) hs hs rfl hc, hbyte]
  rfl

/-- A later tick that reads extends the chain by the address it reads. -/
theorem Along.tick {s u : State} {act : State → State} {r r' : Regs} {pc pc' : Addr} {c c' : Scratch}
    {q q' : List MicroOp} {reads : List Addr} {last a : Addr} {d : Byte} (hu : Along u (midway s r pc c q reads last))
    (hact : act (midway s r pc c q reads last) = { midway s r' pc' c' q' reads last with tx := ⟨a, d, .read⟩ }) :
    Along (cycle act u) (midway s r' pc' c' q' (reads ++ [last]) a) := by
  intro h
  obtain ⟨hrun, -, hc⟩ := running_of_cycle h
  have heq := hu hrun
  rw [heq] at hrun
  rw [heq, hact] at hc
  rw [heq]
  exact cycle_midway (s := s) hrun hact hc

/-- Decode and Dispatch of an instruction whose set-up queues `q` and fetches the byte after the opcode (R138). -/
theorem opened_along {op : Byte} {e : Entry} {q : List MicroOp} (s : State)
    (hd : ∀ u, dispatch op e u = enqueue q (fetchOperand (setScratch { u.scratch with op := op } u))) :
    Along (opened op e s)
      (midway s s.regs (s.pc + 2) { s.scratch with op := op } ((s.q ++ [MicroOp.dispatch]).tail ++ q) [s.pc] (s.pc + 1)) := by
  have hpc : s.pc + 1 + 1 = s.pc + 2 := by rw [BitVec.add_assoc]; rfl
  rw [← hpc]
  exact (Along.decode s).tick (by rw [hd]; rfl)

theorem dispatch_jump (op : Byte) (u : State) :
    dispatch op ⟨.jump, .absolute .noIndex⟩ u = enqueue [.absLo, .jmpHi] (fetchOperand (setScratch { u.scratch with op := op } u)) :=
  rfl

theorem OperandClass.ne_undef {c : OpClass} (hc : OperandClass c) : c ≠ .undef := by
  obtain ⟨o, rfl⟩ | ⟨o, rfl⟩ := hc <;> exact nofun

/-- AbsLo of an instruction with a 16-bit operand (R140). -/
theorem absLo_along {op : Byte} {e : Entry} {q : List MicroOp} (s : State)
    (hd : ∀ u, dispatch op e u = enqueue q (fetchOperand (setScratch { u.scratch with op := op } u))) (b : Byte) :
    Along (cycle (fun u => absLo b (popQ u)) (opened op e s))
      (midway s s.regs (s.pc + 3) { s.scratch with op := op, lo := b } ((s.q ++ [MicroOp.dispatch]).tail ++ q).tail
        [s.pc, s.pc + 1] (s.pc + 2)) := by
  have hpc : s.pc + 2 + 1 = s.pc + 3 := by rw [BitVec.add_assoc]; rfl
  rw [← hpc]
  exact (opened_along s hd).tick rfl

/-- AbsHi, inside an instruction (R141). -/
theorem absHi_midway (s : State) (r : Regs) (pc : Addr) (sc : Scratch) (q : List MicroOp) (reads : List Addr) (last : Addr)
    (c : OpClass) (idx : Index) {a : Addr} (hlo : sc.lo = loByte a) :
    absHi c idx (hiByte a) (midway s r pc sc q reads last) =
      { midway s r pc { sc with ea := indexedAddr a idx r } (q ++ tailOps s.cfg c idx (indexCrosses a idx r)) reads last with
        tx := ⟨last, busByte s reads last, .read⟩ } := by
  simp only [absHi, midway, setQ, setScratch, enqueue, ranReading, hlo, concat_hiByte_loByte]

/-- AbsHi fixes the effective address and queues the tail (R141). -/
theorem absHi_along {op : Byte} {c : OpClass} {idx : Index} (s : State) (hc : OperandClass c) (a : Addr) :
    Along (cycle (fun u => absHi c idx (hiByte a) (popQ u))
        (cycle (fun u => absLo (loByte a) (popQ u)) (opened op ⟨c, .absolute idx⟩ s)))
      (midway s s.regs (s.pc + 3) (scratchEa s op (loByte a) (indexedAddr a idx s.regs))
        (((s.q ++ [MicroOp.dispatch]).tail ++ [MicroOp.absLo, .absHi idx]).tail.tail ++ tailOps s.cfg c idx (indexCrosses a idx s.regs))
        [s.pc, s.pc + 1, s.pc + 2] (s.pc + 2)) := by
  exact Along.tick (reads := [s.pc, s.pc + 1]) (absLo_along s (dispatch_absolute hc op idx) (loByte a))
    (absHi_midway s s.regs (s.pc + 3) _ _ _ _ c idx rfl)

/-- ZpLo fixes the effective address and queues the tail (R139). -/
theorem zpLo_along {op : Byte} {c : OpClass} (s : State) (hc : OperandClass c) (z : Byte) :
    Along (cycle (fun u => zpLo c z (popQ u)) (opened op ⟨c, .zeroPage⟩ s))
      (midway s s.regs (s.pc + 2) (scratchEa s op z (zext16 z))
        (((s.q ++ [MicroOp.dispatch]).tail ++ [MicroOp.zpLo]).tail ++ tailOps s.cfg c .noIndex false) [s.pc, s.pc + 1] (s.pc + 1)) :=
  (opened_along s (dispatch_zeroPage hc op)).tick rfl

/-- BranchCheck on a condition that holds, inside an instruction (R147). -/
theorem branchCheck_taken {s : State} {r : Regs} {pc : Addr} {c : Scratch} {q : List MicroOp} {reads : List Addr}
    {last : Addr} {o : BranchOp} {off : Byte}
    (hcond : branchCond o r.p = true) (m : MicroOp) :
    branchCheck (.branch o) off (popQ (midway s r pc c (m :: q) reads last)) =
      { midway s r pc { c with target := branchTarget pc off }
          (q ++ .branchTake :: if crossesPage (branchTarget pc off) pc && s.cfg.branchPagePenalty then [.penalty] else []) reads last with
        tx := ⟨last, busByte s reads last, .read⟩ } := by
  simp [branchCheck, popQ, setQ, setScratch, enqueue, midway, ranReading, hcond]

/-- BranchTake, inside an instruction (R148). -/
theorem branchTake_midway (s : State) (r : Regs) (pc : Addr) (c : Scratch) (m : MicroOp) (q : List MicroOp) {reads : List Addr}
    {last : Addr} :
    branchTake (popQ (midway s r pc c (m :: q) reads last)) =
      { midway s r c.target c q reads last with tx := ⟨last, busByte s reads last, .read⟩ } :=
  rfl

/-! ### The bytes that the ticks fetch -/

theorem status_range {a : Addr} (h : isStatus a = true) : 0x2000 ≤ a.toNat ∧ a.toNat < 0x4000 ∧ a.toNat % 8 = 2 := by
  have hd := decodeAddr_ppu_of_isStatus h
  obtain ⟨-, hram⟩ | ⟨hlo, hhi, hppu⟩ | ⟨-, -, hnone⟩ | ⟨-, hprg⟩ := decodeAddr_cases a
  · exact nomatch hram.symm.trans hd
  · have hoff := congrArg BitVec.toNat (BusTarget.ppu.inj (hppu.symm.trans hd))
    rw [BitVec.toNat_ofNat] at hoff
    change a.toNat % 8 % 8 = 2 at hoff
    omega
  · exact nomatch hnone.symm.trans hd
  · exact nomatch hprg.symm.trans hd

/-- No operand byte of a defined instruction lies at the status register: the byte before it in the bank reads 0x00, which is an
undefined opcode (R82, log 3). -/
theorem operand_not_isStatus {s : State} (h : (fetchInstr s).entry.cls ≠ .undef) {k : Addr} (hk : k.toNat = 1 ∨ k.toNat = 2) :
    isStatus (s.pc + k) = false := by
  rw [Bool.eq_false_iff]
  intro hstatus
  obtain ⟨hlo, hhi, hmod⟩ := status_range hstatus
  rw [BitVec.toNat_add] at hlo hhi hmod
  have hpc := s.pc.isLt
  have hzero : peek s s.pc = 0x00 :=
    congrArg Prod.fst ((ppuWritesAreLoggedAndOtherReadsAreZero s s.pc 0 (by omega) (by omega)).1 (by omega))
  refine h ?_
  rw [fetchInstr, entry_decodeBytes, hzero]
  rfl

/-- The byte at an address that is not the status register's is the same at every tick of reads. -/
theorem busByte_of_not_isStatus {s : State} {reads : List Addr} {a : Addr} (h : isStatus a = false) : busByte s reads a = peek s a := by
  simp [busByte, h]

theorem busByte_nil (s : State) (a : Addr) : busByte s [] a = peek s a :=
  (peek_midway (s := s) (reads := []) rfl rfl rfl a).symm

/-- What the fetches of the instruction at `PC` deliver: its opcode with the table entry, and its operand bytes (R100-R102). -/
theorem tableEntry_peek (s : State) : tableEntry (peek s s.pc) = (fetchInstr s).entry :=
  (entry_decodeBytes _ _ _).symm

theorem encode_fetchInstr (s : State) :
    encode (fetchInstr s) = [peek s s.pc, peek s (s.pc + 1), peek s (s.pc + 2)].take (fetchInstr s).length :=
  encode_decodeBytes _ _ _

theorem fetched_one {s : State} {op : Byte} {bs : List Byte} (h : encode (fetchInstr s) = op :: bs) : peek s s.pc = op := by
  have hbytes := encode_fetchInstr s
  rw [h] at hbytes
  obtain ⟨n, hn⟩ := Nat.exists_eq_add_of_le' (fetchInstr s).one_le_length
  rw [hn, List.take_succ_cons] at hbytes
  exact (List.head_eq_of_cons_eq hbytes).symm

theorem fetched_two {s : State} {op b : Byte} {bs : List Byte} (h : encode (fetchInstr s) = op :: b :: bs)
    (hdef : (fetchInstr s).entry.cls ≠ .undef) (reads : List Addr) : busByte s reads (s.pc + 1) = b := by
  rw [busByte_of_not_isStatus (operand_not_isStatus hdef (.inl rfl))]
  have hbytes := encode_fetchInstr s
  have hlen := encode_length (fetchInstr s)
  rw [h] at hbytes hlen
  rw [← hlen, List.length_cons, List.length_cons, List.take_succ_cons, List.take_succ_cons] at hbytes
  exact (List.head_eq_of_cons_eq (List.tail_eq_of_cons_eq hbytes)).symm

theorem fetched_three {s : State} {op b b' : Byte} (h : encode (fetchInstr s) = [op, b, b'])
    (hdef : (fetchInstr s).entry.cls ≠ .undef) (reads : List Addr) : busByte s reads (s.pc + 2) = b' := by
  rw [busByte_of_not_isStatus (operand_not_isStatus hdef (.inr rfl))]
  have hbytes := encode_fetchInstr s
  rw [← encode_length, h] at hbytes
  obtain ⟨-, -, h2⟩ : op = _ ∧ b = _ ∧ b' = _ := by simpa using hbytes
  exact h2.symm

/-! ### `clk` at the ticks of a schedule -/

/-- Where the micro-operation at the front of the queue is the act of the schedule, the tick is a tick of `clk`. -/
theorem Along.cycle_eq_clk {s u : State} {r : Regs} {pc : Addr} {c : Scratch} {m : MicroOp} {ms : List MicroOp} {reads : List Addr}
    {last : Addr} (hu : Along u (midway s r pc c (m :: ms) reads last)) {act : State → State}
    (hact : runMicroOp m (midway s r pc c ms reads last) = act (midway s r pc c ms reads last)) :
    cycle (fun v => act (popQ v)) u = cycle clk u := by
  refine cycle_congr fun hrun => ?_
  obtain rfl := hu hrun
  rw [clk_queued hrun rfl]
  exact hact.symm

/-- The entry of the opcode at `PC`, once its instruction is known. -/
theorem tableEntry_of_bytes {s : State} {op : Byte} {bs : List Byte} {e : Entry} (hb : encode (fetchInstr s) = op :: bs)
    (he : (fetchInstr s).entry = e) : tableEntry op = e :=
  fetched_one hb ▸ (tableEntry_peek s).trans he

section
variable {s : State} {r : Regs} {pc : Addr} {sc : Scratch} {q : List MicroOp} {e : Entry} {op b b' : Byte} {bs : List Byte}

/-- Dispatch finds the opcode of the instruction at `PC` and its entry (R137). -/
theorem runMicroOp_dispatch (hb : encode (fetchInstr s) = op :: bs) (he : (fetchInstr s).entry = e) :
    runMicroOp .dispatch (midway s r pc sc q [] s.pc) = dispatch op e (midway s r pc sc q [] s.pc) := by
  change dispatch (busByte s [] s.pc) (tableEntry (busByte s [] s.pc)) _ = _
  rw [busByte_nil, fetched_one hb, tableEntry_of_bytes hb he]

section
variable (hb : encode (fetchInstr s) = op :: b :: bs) (he : (fetchInstr s).entry = e) (hdef : e.cls ≠ .undef)
include hb he hdef

/-- The micro-operations after the first operand fetch find the first operand byte and, but for AbsLo, the class in flight
(R139, R140, R145, R147). -/
theorem runMicroOp_absLo : runMicroOp .absLo (midway s r pc sc q [s.pc] (s.pc + 1)) = absLo b (midway s r pc sc q [s.pc] (s.pc + 1)) := by
  change absLo (busByte s [s.pc] (s.pc + 1)) _ = _
  rw [fetched_two hb (he ▸ hdef)]

theorem runMicroOp_zpLo : runMicroOp .zpLo (midway s r pc { sc with op := op } q [s.pc] (s.pc + 1)) =
    zpLo e.cls b (midway s r pc { sc with op := op } q [s.pc] (s.pc + 1)) := by
  change zpLo (tableEntry op).cls (busByte s [s.pc] (s.pc + 1)) _ = _
  rw [fetched_two hb (he ▸ hdef), tableEntry_of_bytes hb he]

theorem runMicroOp_commit : runMicroOp .commit (midway s r pc { sc with op := op } q [s.pc] (s.pc + 1)) =
    commit e.cls b (midway s r pc { sc with op := op } q [s.pc] (s.pc + 1)) := by
  change commit (tableEntry op).cls (busByte s [s.pc] (s.pc + 1)) _ = _
  rw [fetched_two hb (he ▸ hdef), tableEntry_of_bytes hb he]

theorem runMicroOp_branchCheck : runMicroOp .branchCheck (midway s r pc { sc with op := op } q [s.pc] (s.pc + 1)) =
    branchCheck e.cls b (midway s r pc { sc with op := op } q [s.pc] (s.pc + 1)) := by
  change branchCheck (tableEntry op).cls (busByte s [s.pc] (s.pc + 1)) _ = _
  rw [fetched_two hb (he ▸ hdef), tableEntry_of_bytes hb he]

end

section
variable (hb : encode (fetchInstr s) = [op, b, b']) (he : (fetchInstr s).entry = e) (hdef : e.cls ≠ .undef)
include hb he hdef

/-- The micro-operations after the second operand fetch find the second operand byte (R141, R149). -/
theorem runMicroOp_absHi (idx : Index) (lo : Byte) :
    runMicroOp (.absHi idx) (midway s r pc { sc with op := op, lo := lo } q [s.pc, s.pc + 1] (s.pc + 2)) =
      absHi e.cls idx b' (midway s r pc { sc with op := op, lo := lo } q [s.pc, s.pc + 1] (s.pc + 2)) := by
  change absHi (tableEntry op).cls idx (busByte s [s.pc, s.pc + 1] (s.pc + 2)) _ = _
  rw [fetched_three hb (he ▸ hdef), tableEntry_of_bytes hb he]

theorem runMicroOp_jmpHi : runMicroOp .jmpHi (midway s r pc sc q [s.pc, s.pc + 1] (s.pc + 2)) =
    jmpHi b' (midway s r pc sc q [s.pc, s.pc + 1] (s.pc + 2)) := by
  change jmpHi (busByte s [s.pc, s.pc + 1] (s.pc + 2)) _ = _
  rw [fetched_three hb (he ▸ hdef)]

end

end

/-- Decode and Dispatch (R133, R137). -/
theorem opened_eq_clk {s : State} (hs : Ready s) {op : Byte} {bs : List Byte} {e : Entry} (hb : encode (fetchInstr s) = op :: bs)
    (he : (fetchInstr s).entry = e) : opened op e s = cycle clk (cycle clk s) := by
  have hdecode : cycle decodeStep s = cycle clk s := cycle_congr fun _ => (clk_ready hs).symm
  have halong := Along.decode s
  rw [hs.2] at halong
  rw [opened, ← hdecode]
  exact halong.cycle_eq_clk (act := dispatch op e) (runMicroOp_dispatch hb he)

theorem runTail_cons (c : OpClass) (m : MicroOp) (ms : List MicroOp) (s : State) :
    runTail c (m :: ms) s = runTail c ms (cycle (fun v => tailOp c m (popQ v)) s) := rfl

/-- The micro-operations that follow an effective address. -/
def IsTail (m : MicroOp) : Prop := m = .penalty ∨ m = .access ∨ m = .commit ∨ m = .store

theorem isTail_of_mem_tailOps {cfg : Config} {c : OpClass} {idx : Index} {crossed : Bool} {m : MicroOp}
    (h : m ∈ tailOps cfg c idx crossed) : IsTail m := by
  unfold tailOps at h
  split at h
  · simp only [List.mem_append, List.mem_ite_nil_right, List.mem_cons, List.not_mem_nil, or_false] at h
    unfold IsTail
    tauto
  · simp only [List.mem_append, List.mem_ite_nil_right, List.mem_cons, List.not_mem_nil, or_false] at h
    unfold IsTail
    tauto
  all_goals cases h

theorem runMicroOp_of_isTail {m : MicroOp} (h : IsTail m) (v : State) : runMicroOp m v = tailOp (inFlight v) m v := by
  obtain rfl | rfl | rfl | rfl := h <;> rfl

theorem tailOp_q_scratch (c : OpClass) (m : MicroOp) (v : State) :
    (tailOp c m v).q = v.q ∧ (tailOp c m v).scratch = v.scratch := by
  cases m with
  | commit => cases c <;> exact ⟨rfl, rfl⟩
  | store => cases c <;> exact ⟨rfl, rfl⟩
  | _ => exact ⟨rfl, rfl⟩

/-- The tail of an instruction (R142-R146). -/
theorem runTail_eq_clk {c : OpClass} {ms : List MicroOp} {u : State} (hms : ∀ m ∈ ms, IsTail m)
    (hu : u.halt = none → u.q = ms ∧ inFlight u = c) : runTail c ms u = (cycle clk)^[ms.length] u := by
  induction ms generalizing u with
  | nil => rfl
  | cons m ms ih =>
    have hclk : cycle (fun v => tailOp c m (popQ v)) u = cycle clk u := by
      refine cycle_congr fun hrun => ?_
      obtain ⟨hq, hc⟩ := hu hrun
      rw [clk_queued hrun hq, runMicroOp_of_isTail (hms m (.head _))]
      exact hc ▸ rfl
    rw [runTail_cons, List.length_cons, Function.iterate_succ_apply, ← hclk]
    refine ih (fun m' hm' => hms m' (.tail _ hm')) fun hrun' => ?_
    obtain ⟨hrun, -, -⟩ := running_of_cycle hrun'
    obtain ⟨hq, hc⟩ := hu hrun
    obtain ⟨hq', hs'⟩ := tailOp_q_scratch c m (popQ u)
    rw [cycle_running hrun, inFlight, finishTick_q, finishTick_scratch, busStep_q, busStep_scratch, hq', hs']
    exact ⟨congrArg List.tail hq, hc⟩

/-! ### The rows of the tick table -/

theorem cpuTicks_zeroPage {i : Instr} {c : OpClass} (hc : OperandClass c) (he : i.entry = ⟨c, .zeroPage⟩) (s : State) :
    cpuTicks i s = 3 + (tailOps s.cfg c .noIndex false).length := by
  obtain ⟨o, rfl⟩ | ⟨o, rfl⟩ := hc <;> simp [cpuTicks, he, tailOps]

theorem operandAddr_absolute {i : Instr} {c : OpClass} {idx : Index} {op : Byte} {a : Addr} (he : i.entry = ⟨c, .absolute idx⟩)
    (hb : encode i = [op, loByte a, hiByte a]) (s : State) : operandAddr i s = indexedAddr a idx s.regs := by
  cases idx <;> simp [operandAddr, he, operandBytes, hb, effectiveAddr, indexedAddr, indexValue]

theorem operandCrosses_absolute {i : Instr} {c : OpClass} {idx : Index} {op : Byte} {a : Addr} (he : i.entry = ⟨c, .absolute idx⟩)
    (hb : encode i = [op, loByte a, hiByte a]) (s : State) : operandCrosses i s = indexCrosses a idx s.regs := by
  rw [indexCrosses_eq, operandCrosses, operandAddr_absolute he hb, operandBytes, hb]
  rfl

theorem cpuTicks_absolute {i : Instr} {c : OpClass} (hc : OperandClass c) {idx : Index} {op : Byte} {a : Addr}
    (he : i.entry = ⟨c, .absolute idx⟩) (hb : encode i = [op, loByte a, hiByte a]) (s : State) :
    cpuTicks i s = 4 + (tailOps s.cfg c idx (indexCrosses a idx s.regs)).length := by
  have hcross := operandCrosses_absolute he hb s
  obtain ⟨o, rfl⟩ | ⟨o, rfl⟩ := hc
  · cases idx with
    | noIndex => simp [cpuTicks, he, tailOps, indexCrosses]
    | x => simp only [cpuTicks, he, tailOps, hcross]; split <;> rfl
    | y => simp only [cpuTicks, he, tailOps, hcross]; split <;> rfl
  · cases idx with
    | noIndex => simp [cpuTicks, he, tailOps]
    | x => simp only [cpuTicks, he, tailOps]; cases s.cfg.idxPagePenalty <;> rfl
    | y => simp only [cpuTicks, he, tailOps]; cases s.cfg.idxPagePenalty <;> rfl

theorem cpuTicks_branch {i : Instr} {op off : Byte} {o : BranchOp} (he : i.entry = ⟨.branch o, .relative⟩)
    (hb : encode i = [op, off]) (s : State) :
    cpuTicks i s = if branchCond o s.regs.p then
      if crossesPage (branchTarget (s.pc + 2) off) (s.pc + 2) && s.cfg.branchPagePenalty then 5 else 4 else 3 := by
  simp [cpuTicks, he, operandTarget, operandBytes, hb, crossesPage, branchTarget]

/-! ### Each schedule is its ticks of `clk` -/

section
variable {s : State} (hs : Ready s)
include hs

theorem runImmediate_eq_clk {op m : Byte} {o : ReadOp} (he : (fetchInstr s).entry = ⟨.read o, .immediate⟩)
    (hb : encode (fetchInstr s) = [op, m]) : runImmediate op o m s = (cycle clk)^[3] s := by
  have halong := opened_along (op := op) (e := ⟨.read o, .immediate⟩) (q := [.commit]) s (fun _ => rfl)
  rw [hs.2] at halong
  have hcommit := halong.cycle_eq_clk (act := commit (.read o) m) (runMicroOp_commit hb he nofun)
  rw [runImmediate, hcommit, opened_eq_clk hs hb he]
  rfl

theorem runZeroPage_eq_clk {op z : Byte} {c : OpClass} (hc : OperandClass c) (he : (fetchInstr s).entry = ⟨c, .zeroPage⟩)
    (hb : encode (fetchInstr s) = [op, z]) : runZeroPage op c z s = (cycle clk)^[cpuTicks (fetchInstr s) s] s := by
  have halong := opened_along s (dispatch_zeroPage hc op)
  have haddressed := zpLo_along (op := op) s hc z
  rw [hs.2] at halong haddressed
  have hzpLo := halong.cycle_eq_clk (act := zpLo c z) (runMicroOp_zpLo hb he hc.ne_undef)
  have hcls : (tableEntry op).cls = c := congrArg Entry.cls (tableEntry_of_bytes hb he)
  rw [runZeroPage, runTail_eq_clk (fun _ => isTail_of_mem_tailOps) (fun h => by rw [haddressed h]; exact ⟨rfl, hcls⟩),
    hzpLo, opened_eq_clk hs hb he, cpuTicks_zeroPage hc he, Nat.add_comm, Function.iterate_add_apply]
  rfl

theorem runAbsolute_eq_clk {op : Byte} {c : OpClass} {idx : Index} {a : Addr} (hc : OperandClass c)
    (he : (fetchInstr s).entry = ⟨c, .absolute idx⟩) (hb : encode (fetchInstr s) = [op, loByte a, hiByte a]) :
    runAbsolute op c idx a s = (cycle clk)^[cpuTicks (fetchInstr s) s] s := by
  have halong := opened_along s (dispatch_absolute hc op idx)
  have halongLo := absLo_along s (dispatch_absolute hc op idx) (loByte a)
  have haddressed := absHi_along (op := op) (idx := idx) s hc a
  rw [hs.2] at halong halongLo haddressed
  have habsLo := halong.cycle_eq_clk (act := absLo (loByte a)) (runMicroOp_absLo hb he hc.ne_undef)
  have habsHi := halongLo.cycle_eq_clk (act := absHi c idx (hiByte a)) (runMicroOp_absHi hb he hc.ne_undef idx (loByte a))
  have hcls : (tableEntry op).cls = c := congrArg Entry.cls (tableEntry_of_bytes hb he)
  rw [runAbsolute, runTail_eq_clk (fun _ => isTail_of_mem_tailOps) (fun h => by rw [haddressed h]; exact ⟨rfl, hcls⟩),
    habsHi, habsLo, opened_eq_clk hs hb he, cpuTicks_absolute hc he hb, Nat.add_comm, Function.iterate_add_apply]
  rfl

theorem runJump_eq_clk {op : Byte} {a : Addr} (he : (fetchInstr s).entry = ⟨.jump, .absolute .noIndex⟩)
    (hb : encode (fetchInstr s) = [op, loByte a, hiByte a]) : runJump op a s = (cycle clk)^[4] s := by
  have halong := opened_along s (dispatch_jump op)
  have halongLo := absLo_along s (dispatch_jump op) (loByte a)
  rw [hs.2] at halong halongLo
  have habsLo := halong.cycle_eq_clk (act := absLo (loByte a)) (runMicroOp_absLo hb he nofun)
  have hjmpHi := halongLo.cycle_eq_clk (act := jmpHi (hiByte a)) (runMicroOp_jmpHi hb he nofun)
  rw [runJump, hjmpHi, habsLo, opened_eq_clk hs hb he]
  rfl

theorem runBranch_eq_clk {op off : Byte} {o : BranchOp} (he : (fetchInstr s).entry = ⟨.branch o, .relative⟩)
    (hb : encode (fetchInstr s) = [op, off]) : runBranch op o off s = (cycle clk)^[cpuTicks (fetchInstr s) s] s := by
  have halong := opened_along (op := op) (e := ⟨.branch o, .relative⟩) (q := [.branchCheck]) s (fun _ => rfl)
  rw [hs.2] at halong
  have hcheck := halong.cycle_eq_clk (act := branchCheck (.branch o) off) (runMicroOp_branchCheck hb he nofun)
  have hopened := opened_eq_clk hs hb he
  rw [runBranch, cpuTicks_branch he hb]
  cases hcond : branchCond o s.regs.p with
  | false =>
    rw [hcheck, hopened]
    rfl
  | true =>
    have halongCheck := halong.tick (act := fun u => branchCheck (.branch o) off (popQ u)) (branchCheck_taken hcond _)
    have htake := halongCheck.cycle_eq_clk (act := branchTake) rfl
    have halongTake := halongCheck.tick (act := fun u => branchTake (popQ u)) (branchTake_midway _ _ _ _ .branchTake _)
    simp only [if_true]
    cases howed : crossesPage (branchTarget (s.pc + 2) off) (s.pc + 2) && s.cfg.branchPagePenalty with
    | false =>
      simp only [Bool.false_eq_true, if_false]
      rw [htake, hcheck, hopened]
      rfl
    | true =>
      rw [howed] at halongTake
      have hpenalty := halongTake.cycle_eq_clk (act := id) rfl
      simp only [if_true]
      change cycle (fun v => id (popQ v)) _ = _
      rw [hpenalty, htake, hcheck, hopened]
      rfl

end

/-- The meaning of the instruction at `PC` is its ticks of `clk`, the ticks after a halt having no effect. -/
theorem exec_fetchInstr {s : State} (hs : Ready s) :
    exec (fetchInstr s) s = .next ((cycle clk)^[cpuTicks (fetchInstr s) s] s) := by
  cases exec_runs (fetchInstr s) with
  | implied op o m run entry bytes =>
    rw [run, runImplied, opened_eq_clk hs bytes entry]
    simp [cpuTicks, entry]
  | immediate op o m run entry bytes =>
    rw [run, runImmediate_eq_clk hs entry bytes]
    simp [cpuTicks, entry]
  | zeroPage op c z cls run entry bytes => rw [run, runZeroPage_eq_clk hs cls entry bytes]
  | absolute op c idx a cls run entry bytes => rw [run, runAbsolute_eq_clk hs cls entry bytes]
  | branch op o off run entry bytes => rw [run, runBranch_eq_clk hs entry bytes]
  | jump op a run entry bytes =>
    rw [run, runJump_eq_clk hs entry bytes]
    simp [cpuTicks, entry]
  | undefined op run entry bytes =>
    rw [run, runUndefined, opened_eq_clk hs bytes entry]
    simp [cpuTicks, entry]

/-- What a boundary is. -/
theorem atBoundary_iff (s : State) : atBoundary s = true ↔ Due s ∧ s.q = [] := by
  simp only [atBoundary, Bool.and_eq_true, Option.isNone_iff_eq_none, List.isEmpty_iff, beq_iff_eq, cpuPeriod]
  exact ⟨fun ⟨⟨⟨hrun, hq⟩, ht⟩, hd⟩ => ⟨⟨hrun, hd, ht⟩, hq⟩, fun ⟨⟨hrun, hd, ht⟩, hq⟩ => ⟨⟨⟨hrun, hq⟩, ht⟩, hd⟩⟩

/-- Settles O7: the meaning is its row of CPU ticks, and each of them twelve master ticks. -/
theorem stepIsTheSchedulersMasterTicks : Obligations.StepIsTheSchedulersMasterTicks := by
  intro s hb
  obtain ⟨hdue, hq⟩ := (atBoundary_iff s).mp hb
  rw [step, if_pos hb, exec_fetchInstr ⟨hdue.running, hq⟩, hdue.runTicks_dozens]

end Sys2Proof.Machine

/-! PROOFS. The invariant (10_state.md §2-§5, 60_exceptions.md §1-§4): every master tick keeps it, so every step does. -/

namespace Sys2Proof.Machine

/-! ### The queue -/

/-- What a micro-operation can append to the queue (R138-R149). -/
def appended : MicroOp → List (List MicroOp)
  | .dispatch => [[], [.branchCheck], [.absLo, .jmpHi], [.commit], [.zpLo], [.absLo, .absHi .noIndex], [.absLo, .absHi .x],
      [.absLo, .absHi .y]]
  | .zpLo => [[], [.access, .commit], [.store]]
  | .absHi _ => [[], [.penalty, .access, .commit], [.access, .commit], [.penalty, .store], [.store]]
  | .branchCheck => [[], [.branchTake], [.branchTake, .penalty]]
  | _ => [[]]

theorem setup_q (e : Entry) (s : State) : ∃ ms ∈ appended .dispatch, (setup e s).q = s.q ++ ms := by
  have hnone : ∃ ms ∈ appended .dispatch, s.q = s.q ++ ms := ⟨[], .head _, (List.append_nil _).symm⟩
  unfold setup
  split
  · exact hnone
  · exact ⟨[.branchCheck], by decide, rfl⟩
  · exact ⟨[.absLo, .jmpHi], by decide, rfl⟩
  · exact hnone
  all_goals
    split
    · exact ⟨[.commit], by decide, rfl⟩
    · exact ⟨[.zpLo], by decide, rfl⟩
    · rename_i idx _
      exact ⟨[.absLo, .absHi idx], by cases idx <;> decide, rfl⟩
    all_goals exact hnone

theorem setup_halt (e : Entry) (s : State) : (setup e s).halt = s.halt := by
  obtain ⟨c, m⟩ := e
  cases c <;> cases m <;> rfl

theorem tailOps_mem_appended (cfg : Config) (c : OpClass) (idx : Index) (crossed : Bool) :
    tailOps cfg c idx crossed ∈ appended (.absHi idx) ∧ tailOps cfg c .noIndex false ∈ appended .zpLo := by
  cases c with
  | read o => exact ⟨by simp only [tailOps, appended]; split <;> simp, by simp [tailOps, appended]⟩
  | store o => exact ⟨by simp only [tailOps, appended]; split <;> simp, by simp [tailOps, appended]⟩
  | _ => exact ⟨.head _, .head _⟩

theorem runMicroOp_q (m : MicroOp) (s : State) : ∃ ms ∈ appended m, (runMicroOp m s).q = s.q ++ ms := by
  have hnone : s.q = s.q ++ [] := (List.append_nil _).symm
  cases m with
  | dispatch =>
    simp only [runMicroOp, dispatch]
    split
    · exact ⟨[], .head _, by simp [raiseHalt_eq]⟩
    all_goals exact setup_q _ _
  | zpLo => exact ⟨_, (tailOps_mem_appended s.cfg (inFlight s) .noIndex false).2, rfl⟩
  | absHi idx => exact ⟨_, (tailOps_mem_appended s.cfg (inFlight s) idx _).1, rfl⟩
  | branchCheck =>
    simp only [runMicroOp, branchCheck]
    split
    · split
      · simp only [enqueue, setQ_q, setScratch_q]
        split
        · exact ⟨[.branchTake, .penalty], by decide, rfl⟩
        · exact ⟨[.branchTake], by decide, rfl⟩
      · exact ⟨[], .head _, hnone⟩
    all_goals exact ⟨[], .head _, hnone⟩
  | commit => exact ⟨[], .head _, by cases h : inFlight s <;> simp [runMicroOp, commit, h]⟩
  | store => exact ⟨[], .head _, by cases h : inFlight s <;> simp [runMicroOp, store, h, txWrite]⟩
  | _ => exact ⟨[], .head _, hnone⟩

/-- A legal queue that has given its front and taken what that appends is legal, over the list of them. -/
theorem legalQueues_closed : ∀ q ∈ legalQueues, ∀ ms ∈ (q.head?.map appended).getD [[.dispatch]], q.tail ++ ms ∈ legalQueues := by
  decide

theorem clk_q_legal {s : State} (h : s.q ∈ legalQueues) : (clk s).q ∈ legalQueues := by
  have hclosed := legalQueues_closed s.q h
  unfold clk
  split
  · exact h
  · split
    · rename_i hq
      rw [hq] at hclosed
      rw [decodeStep_eq hq]
      exact hclosed [.dispatch] (.head _)
    · rename_i m ms hq
      obtain ⟨new, hnew, heq⟩ := runMicroOp_q m (popQ s)
      rw [heq]
      exact hclosed new (by rw [hq]; exact hnew)

/-- Settles O12: the longest of the legal queues has three. -/
theorem queueHoldsAtMostThree : Obligations.QueueHoldsAtMostThree := by
  intro s h
  have hlengths : ∀ q ∈ legalQueues, q.length ≤ 3 := by decide
  exact hlengths s.q h.queue

/-! ### The halt -/

/-- Of the micro-operations only Dispatch halts, on an opcode byte off the map, with the state it leaves in the record (R330, R331). -/
theorem runMicroOp_halt (m : MicroOp) (s : State) (hs : s.halt = none) :
    (runMicroOp m s).halt = none ∨
      ∃ op, isAdmitted op = false ∧
        (runMicroOp m s).halt = some (haltRecord (.undefinedOpcode op ((runMicroOp m s).pc - 1)) (runMicroOp m s)) := by
  cases m with
  | dispatch =>
    cases he : (tableEntry s.tx.data).cls with
    | undef =>
      refine .inr ⟨s.tx.data, (cls_tableEntry_eq_undef_iff _).mp he, ?_⟩
      simp only [runMicroOp, dispatch, he, raiseHalt_eq, setScratch_halt, hs, setHalt_halt]
      rfl
    | _ => exact .inl (by simp only [runMicroOp, dispatch, he, setup_halt, setScratch_halt, hs])
  | commit => exact .inl (by cases h : inFlight s <;> simp [runMicroOp, commit, h, hs])
  | store => exact .inl (by cases h : inFlight s <;> simp [runMicroOp, store, h, txWrite, hs])
  | branchCheck =>
    refine .inl ?_
    simp only [runMicroOp, branchCheck]
    split
    · split <;> exact hs
    all_goals exact hs
  | _ => exact .inl hs

theorem clk_halt {s : State} (hs : s.halt = none) :
    (clk s).halt = none ∨
      ∃ op, isAdmitted op = false ∧ (clk s).halt = some (haltRecord (.undefinedOpcode op ((clk s).pc - 1)) (clk s)) := by
  cases hq : s.q with
  | nil => exact .inl (by rw [clk_ready ⟨hs, hq⟩]; exact hs)
  | cons m ms =>
    rw [clk_queued hs hq]
    exact runMicroOp_halt m (popQ s) hs

/-- A halt that a bus step leaves was held before it, or is the unmapped access it has resolved (R333). -/
theorem busStep_halt_cases {s : State} {r : HaltRecord} (h : (busStep s).halt = some r) :
    s.halt = some r ∨
      (isMapped s.tx.addr = false ∧ s.cfg.unmappedPolicy = .fault ∧
        r = haltRecord (.unmappedAccess s.tx.addr s.tx.dir) (resolveTx s)) := by
  cases hs : s.halt with
  | some r' =>
    rw [busStep_halt_of_halted hs] at h
    exact .inl h
  | none =>
    by_cases hf : isMapped s.tx.addr = false ∧ s.cfg.unmappedPolicy = .fault
    · rw [busStep_fault hf.1 hf.2, raiseHalt_eq, setHalt_halt, resolveTx_halt, hs] at h
      exact .inr ⟨hf.1, hf.2, (Option.some.inj h).symm⟩
    · rw [busStep, if_neg hf, resolveTx_halt, hs] at h
      cases h

/-- Whether the reason of a halt record fits the parameters (R330, R333). -/
def reasonFits (cfg : Config) (r : HaltRecord) : Prop :=
  match r.reason with
  | .undefinedOpcode op addr => isAdmitted op = false ∧ addr = r.pc - 1
  | .unmappedAccess addr _ => isMapped addr = false ∧ cfg.unmappedPolicy = .fault

theorem haltFits_iff (s : State) (r : HaltRecord) :
    haltFits s r = true ↔ r.t < s.t ∧ r.t % 12 = 0 ∧ r.regs = s.regs ∧ r.pc = s.pc ∧ reasonFits s.cfg r := by
  unfold haltFits reasonFits
  simp only [Bool.and_eq_true, decide_eq_true_eq, beq_iff_eq, cpuPeriod]
  cases r.reason <;> simp [and_assoc]

/-- The halt record after the CPU and the bus have run on a master tick due to them, seen from the next tick (R331, R332). -/
theorem haltFits_after_cpu {s : State} (hfits : ∀ r, s.halt = some r → haltFits s r = true) (ht : s.t % 12 = 0) {r : HaltRecord}
    (hr : (busStep (clk s)).halt = some r) : haltFits (setT (s.t + 1) (busStep (clk s))) r = true := by
  simp only [haltFits_iff, setT_t, setT_regs, setT_pc, setT_cfg, busStep_regs, busStep_pc, busStep_cfg, clk_cfg] at hfits ⊢
  cases hs : s.halt with
  | some r' =>
    rw [clk_halted hs] at hr ⊢
    rw [busStep_halt_of_halted hs] at hr
    obtain ⟨hlt, hmod, hregs, hpc, hreason⟩ := hfits r (hs.trans hr)
    exact ⟨Nat.lt_succ_of_lt hlt, hmod, hregs, hpc, hreason⟩
  | none =>
    obtain hclk | ⟨hm, hp, rfl⟩ := busStep_halt_cases hr
    · obtain hnone | ⟨op, hop, hundef⟩ := clk_halt hs
      · rw [hnone] at hclk
        cases hclk
      · obtain rfl := Option.some.inj (hundef.symm.trans hclk)
        exact ⟨by simp [haltRecord], by simp [haltRecord, ht], rfl, rfl, hop, rfl⟩
    · obtain ⟨d, m, b, l, hx⟩ := resolveTx_frame (clk s)
      rw [hx]
      refine ⟨by simp [haltRecord], by simp [haltRecord, ht], rfl, rfl, hm, ?_⟩
      simpa using hp

/-! ### The master tick -/

/-- The PPU step that ends a master tick on which it fires (R344). -/
theorem inv_after_ppuStep {u : State} (h : Inv (setHalt none u)) (ht : u.t % 4 = 0)
    (hfits : ∀ r, u.halt = some r → haltFits (setT (u.t + 1) u) r = true) : Inv { ppuStep u with t := u.t + 1 } where
  config := h.config
  ramCanonical := h.ramCanonical
  ramBounded := h.ramBounded
  clock := h.clock
  position := by
    have hpos : u.ppu.pos = (u.t + 3) / 4 % u.cfg.frame := h.position
    change (u.ppu.pos + 1) % u.cfg.frame = (u.t + 1 + 3) / 4 % u.cfg.frame
    rw [hpos, Nat.mod_add_mod]
    congr 1
    omega
  sprites := h.sprites
  queue := h.queue
  halted := hfits

theorem inv_setHalt_none {s : State} (h : Inv s) : Inv (setHalt none s) :=
  { h with halted := fun _ hr => nomatch hr }

/-- The CPU and the bus keep every clause but the one about the halt (R342). -/
theorem inv_after_cpu {s : State} (h : Inv s) : Inv (setHalt none (busStep (clk s))) := by
  obtain ⟨b, l, hppu⟩ := busStep_ppu (clk s)
  rw [clk_ppu] at hppu
  have hram : (busStep (clk s)).ram.wf = true ∧ (busStep (clk s)).ram.below ramSize = true := by
    rw [busStep_ram]
    exact resolveTx_keeps_ram (by rw [clk_ram]; exact h.ramCanonical) (by rw [clk_ram]; exact h.ramBounded)
  refine ⟨?_, hram.1, hram.2, ?_, ?_, ?_, ?_, fun _ hr => nomatch hr⟩
  · simpa using h.config
  · simpa using h.clock
  · simpa [hppu] using h.position
  · simpa [hppu] using h.sprites
  · simpa using clk_q_legal h.queue

/-- Settles O10: on a tick due to the CPU the queue stays a remainder of a schedule and a halt that is raised fits; on the others the
counter and the PPU move together. -/
theorem masterTickKeepsTheInvariant : Obligations.MasterTickKeepsTheInvariant := by
  intro s h
  have hlater : ∀ r, s.halt = some r → haltFits (setT (s.t + 1) s) r = true := by
    intro r hr
    obtain ⟨hlt, hrest⟩ := (haltFits_iff s r).mp (h.halted r hr)
    exact (haltFits_iff _ r).mpr ⟨Nat.lt_succ_of_lt hlt, hrest⟩
  by_cases h4 : s.t % 4 = 0
  · by_cases h12 : s.t % 12 = 0
    · rw [masterTick_cpu h.clock h12]
      have htime : (busStep (clk s)).t = s.t := by simp
      have hinv := inv_after_ppuStep (inv_after_cpu h) (by rwa [htime])
        (fun r hr => by rw [htime]; exact haltFits_after_cpu h.halted h12 hr)
      rwa [htime] at hinv
    · rw [masterTick_ppu h.clock h12 h4]
      exact inv_after_ppuStep (inv_setHalt_none h) h4 hlater
  · rw [masterTick_idle h.clock h4]
    refine { h with position := ?_, halted := hlater }
    rw [h.position]
    congr 1
    dsimp only
    omega

/-- What every master tick keeps, every step keeps: it is a run of them (R10). -/
theorem step_keeps {P : State → Prop} (hP : ∀ u, P u → P (masterTick u)) {s t : State} (h : step s = .next t) (hs : P s) : P t := by
  by_cases hb : atBoundary s = true
  · rw [stepIsTheSchedulersMasterTicks s hb] at h
    cases h
    exact runTicks_keeps hP _ hs
  · rw [step, if_neg hb] at h
    cases h
    exact hP s hs

/-- Settles O9: a step is a run of master ticks. -/
theorem stepKeepsTheInvariant : Obligations.StepKeepsTheInvariant :=
  fun _ _ h hstep => step_keeps masterTickKeepsTheInvariant hstep h

/-- Settles O11: the preconditions of construction are the clauses about parameters and RAM, and it writes the rest. -/
theorem constructionMeetsTheInvariant : Obligations.ConstructionMeetsTheInvariant := by
  have hconstruct : ∀ (cfg : Config) (d : Draws) (s : State), constructBlock cfg d = some s → Inv s := by
    intro cfg d s h
    simp only [constructBlock, validDraws, Option.ite_none_right_eq_some, Bool.and_eq_true, Option.some.injEq] at h
    obtain ⟨⟨hcfg, hwf, hbelow⟩, rfl⟩ := h
    have hpos : 0 = (0 + 3) / 4 % cfg.frame := by simp
    exact ⟨hcfg, hwf, hbelow, rfl, hpos, ⟨rfl, rfl⟩, .tail _ (.head _), fun _ hr => nomatch hr⟩
  exact ⟨hconstruct, hconstruct Config.default Draws.zero _ (by decide)⟩

/-! ### Constants and latches -/

/-- Settles O45: no callback of a master tick writes them, and a step is a run of master ticks. -/
theorem programStorageAndParametersAreConstant : Obligations.ProgramStorageAndParametersAreConstant := by
  refine ⟨fun s t h => ?_, masterTick_cfg_div⟩
  refine step_keeps (P := fun u => u.cfg = s.cfg ∧ u.div = s.div) (fun u ⟨hcfg, hdiv⟩ => ?_) h ⟨rfl, rfl⟩
  obtain ⟨hcfg', hdiv'⟩ := masterTick_cfg_div u
  exact ⟨hcfg'.trans hcfg, hdiv'.trans hdiv⟩

/-- Settles O59: no callback of a master tick sets a latch or takes from the log, and a step is a run of master ticks. -/
theorem spriteLatchesAreNeverChanged : Obligations.SpriteLatchesAreNeverChanged :=
  ⟨fun s _ h => step_keeps (P := PpuGrows s) (fun u hu => hu.trans (masterTick_ppuGrows u)) h (.refl s), masterTick_ppuGrows⟩

end Sys2Proof.Machine

/-! PROOFS. Frames over all instructions (10_state.md §1, 20_memory.md §3, 40_scheduler.md §4): every instruction is the decode step and a list
of acts, a tick each; what each act of its class leaves alone, the instruction leaves alone. -/

namespace Sys2Proof.Machine

/-! ### The acts of an instruction -/

/-- What an act of an instruction can do after the decode step: run a hook of its class on the registers, set a write if its class is store,
and touch no device (R137-R149). -/
structure ActOf (i : Instr) (act : State → State) : Prop where
  regs : ∀ u, (act u).regs = u.regs ∨ (∃ o b, i.entry.cls = .read o ∧ (act u).regs = execHook o b u.regs) ∨
    ∃ o, i.entry.cls = .implied o ∧ (act u).regs = impliedHook o u.regs
  cpuOnly : ∀ u, CpuOnly u (act u)
  dir : ∀ u, (act u).tx.dir = .write → u.tx.dir = .write ∨ ∃ o, i.entry.cls = .store o

/-- The acts run, one CPU tick each. -/
def runActs (acts : List (State → State)) (s : State) : State := acts.foldl (fun u act => cycle act u) s

theorem ActOf.popped {i : Instr} {act : State → State} (h : ActOf i act) : ActOf i fun u => act (popQ u) where
  regs u := h.regs (popQ u)
  cpuOnly u := by
    obtain ⟨r, a, q, c, x, y, e⟩ := h.cpuOnly (popQ u)
    exact ⟨r, a, q, c, x, y, e⟩
  dir u := h.dir (popQ u)

/-- An act that leaves the registers and sets no write. -/
theorem actOf_reading {i : Instr} {act : State → State} (hr : ∀ u, (act u).regs = u.regs) (hc : ∀ u, CpuOnly u (act u))
    (hd : ∀ u, (act u).tx = u.tx ∨ (act u).tx.dir = .read) : ActOf i act where
  regs u := .inl (hr u)
  cpuOnly := hc
  dir u h := by
    obtain heq | hread := hd u
    · exact .inl (heq ▸ h)
    · rw [hread] at h
      cases h

theorem actOf_dispatch {i : Instr} {e : Entry} (he : i.entry = e) (op : Byte) : ActOf i (dispatch op e) := by
  have hc := dispatch_cpuOnly op e
  obtain ⟨c, m⟩ := e
  cases c with
  | implied o => exact ⟨fun u => .inr (.inr ⟨o, by rw [he], rfl⟩), hc, fun u h => .inl h⟩
  | undef =>
    refine actOf_reading (fun u => ?_) hc (fun u => .inl ?_) <;>
      simp [dispatch, raiseHalt_eq]
  | branch o => exact actOf_reading (fun _ => rfl) hc fun _ => .inr rfl
  | jump => exact actOf_reading (fun _ => rfl) hc fun _ => .inr rfl
  | read o =>
    cases m with
    | immediate | zeroPage | absolute => exact actOf_reading (fun _ => rfl) hc fun _ => .inr rfl
    | _ => exact actOf_reading (fun _ => rfl) hc fun _ => .inl rfl
  | store o =>
    cases m with
    | immediate | zeroPage | absolute => exact actOf_reading (fun _ => rfl) hc fun _ => .inr rfl
    | _ => exact actOf_reading (fun _ => rfl) hc fun _ => .inl rfl

theorem actOf_zpLo (i : Instr) (c : OpClass) (z : Byte) : ActOf i (zpLo c z) :=
  actOf_reading (fun _ => rfl) (fun _ => ⟨_, _, _, _, _, _, rfl⟩) fun _ => .inl rfl

theorem actOf_absLo (i : Instr) (b : Byte) : ActOf i (absLo b) :=
  actOf_reading (fun _ => rfl) (fun _ => ⟨_, _, _, _, _, _, rfl⟩) fun _ => .inr rfl

theorem actOf_absHi (i : Instr) (c : OpClass) (idx : Index) (b : Byte) : ActOf i (absHi c idx b) :=
  actOf_reading (fun _ => rfl) (fun _ => ⟨_, _, _, _, _, _, rfl⟩) fun _ => .inl rfl

theorem actOf_commit {i : Instr} {o : ReadOp} (h : i.entry.cls = .read o) (f : State → Byte) :
    ActOf i fun u => commit (.read o) (f u) u :=
  ⟨fun u => .inr (.inl ⟨o, f u, h, rfl⟩), fun _ => ⟨_, _, _, _, _, _, rfl⟩, fun _ h => .inl h⟩

theorem actOf_tailOp {i : Instr} {c : OpClass} (hc : i.entry.cls = c) {m : MicroOp} (h : IsTail m) : ActOf i (tailOp c m) := by
  obtain rfl | rfl | rfl | rfl := h
  · exact actOf_reading (fun _ => rfl) (fun _ => ⟨_, _, _, _, _, _, rfl⟩) fun _ => .inl rfl
  · exact actOf_reading (fun _ => rfl) (fun _ => ⟨_, _, _, _, _, _, rfl⟩) fun _ => .inr rfl
  · cases c with
    | read o => exact actOf_commit hc fun u => u.tx.data
    | _ => exact actOf_reading (fun _ => rfl) (fun _ => ⟨_, _, _, _, _, _, rfl⟩) fun _ => .inl rfl
  · cases c with
    | store o => exact ⟨fun _ => .inl rfl, fun _ => ⟨_, _, _, _, _, _, rfl⟩, fun _ _ => .inr ⟨o, hc⟩⟩
    | _ => exact actOf_reading (fun _ => rfl) (fun _ => ⟨_, _, _, _, _, _, rfl⟩) fun _ => .inl rfl

theorem actOf_branchCheck (i : Instr) (o : BranchOp) (off : Byte) : ActOf i (branchCheck (.branch o) off) := by
  refine actOf_reading (fun u => ?_) (fun u => ?_) fun u => .inl ?_
  all_goals
    simp only [branchCheck]
    split
  exacts [rfl, rfl, ⟨_, _, _, _, _, _, rfl⟩, ⟨_, _, _, _, _, _, rfl⟩, rfl, rfl]

theorem actOf_branchTake (i : Instr) : ActOf i branchTake :=
  actOf_reading (fun _ => rfl) (fun _ => ⟨_, _, _, _, _, _, rfl⟩) fun _ => .inl rfl

theorem actOf_jmpHi (i : Instr) (b : Byte) : ActOf i (jmpHi b) :=
  actOf_reading (fun _ => rfl) (fun _ => ⟨_, _, _, _, _, _, rfl⟩) fun _ => .inl rfl

theorem actOf_id (i : Instr) : ActOf i id :=
  actOf_reading (fun _ => rfl) (fun _ => ⟨_, _, _, _, _, _, rfl⟩) fun _ => .inl rfl

/-- The tail of an instruction as acts. -/
def tailActs (c : OpClass) (ms : List MicroOp) : List (State → State) := ms.map fun m v => tailOp c m (popQ v)

theorem runTail_eq_runActs (c : OpClass) (ms : List MicroOp) (s : State) : runTail c ms s = runActs (tailActs c ms) s := by
  rw [runTail, runActs, tailActs, List.foldl_map]

theorem actOf_of_mem_tailActs {i : Instr} {c : OpClass} (hc : i.entry.cls = c) {cfg : Config} {idx : Index} {crossed : Bool}
    {act : State → State} (h : act ∈ tailActs c (tailOps cfg c idx crossed)) : ActOf i act := by
  obtain ⟨m, hm, rfl⟩ := List.mem_map.mp h
  exact (actOf_tailOp hc (isTail_of_mem_tailOps hm)).popped

theorem runActs_append (as bs : List (State → State)) (s : State) : runActs (as ++ bs) s = runActs bs (runActs as s) :=
  List.foldl_append

/-- Every instruction is the decode step and acts of its own, as many as its row of the tick table has further ticks (R138, R151). -/
theorem exec_acts (i : Instr) (s : State) :
    ∃ acts, exec i s = .next (runActs acts (cycle decodeStep s)) ∧ acts.length + 1 = cpuTicks i s ∧ ∀ act ∈ acts, ActOf i act := by
  cases exec_runs i with
  | implied op o m run entry bytes =>
    refine ⟨[fun u => dispatch op ⟨.implied o, m⟩ (popQ u)], run s, by simp [cpuTicks, entry], ?_⟩
    simpa using (actOf_dispatch entry op).popped
  | undefined op run entry bytes =>
    refine ⟨[fun u => dispatch op ⟨.undef, .noMode⟩ (popQ u)], run s, by simp [cpuTicks, entry], ?_⟩
    simpa using (actOf_dispatch entry op).popped
  | immediate op o m run entry bytes =>
    refine ⟨[fun u => dispatch op ⟨.read o, .immediate⟩ (popQ u), fun u => commit (.read o) m (popQ u)], run s,
      by simp [cpuTicks, entry], ?_⟩
    simpa using ⟨(actOf_dispatch entry op).popped, (actOf_commit (by rw [entry]) fun _ => m).popped⟩
  | jump op a run entry bytes =>
    refine ⟨[fun u => dispatch op ⟨.jump, .absolute .noIndex⟩ (popQ u), fun u => absLo (loByte a) (popQ u),
      fun u => jmpHi (hiByte a) (popQ u)], run s, by simp [cpuTicks, entry], ?_⟩
    simpa using ⟨(actOf_dispatch entry op).popped, (actOf_absLo i _).popped, (actOf_jmpHi i _).popped⟩
  | zeroPage op c z cls run entry bytes =>
    refine ⟨[fun u => dispatch op ⟨c, .zeroPage⟩ (popQ u), fun u => zpLo c z (popQ u)] ++
      tailActs c (tailOps s.cfg c .noIndex false), ?_, ?_, List.forall_mem_append.mpr ⟨?_, ?_⟩⟩
    · rw [run, runZeroPage, runTail_eq_runActs, runActs_append]
      rfl
    · rw [cpuTicks_zeroPage cls entry, List.length_append, tailActs, List.length_map, List.length_cons, List.length_singleton]
      omega
    · simpa using ⟨(actOf_dispatch entry op).popped, (actOf_zpLo i c z).popped⟩
    · exact fun act => actOf_of_mem_tailActs (by rw [entry])
  | absolute op c idx a cls run entry bytes =>
    refine ⟨[fun u => dispatch op ⟨c, .absolute idx⟩ (popQ u), fun u => absLo (loByte a) (popQ u),
      fun u => absHi c idx (hiByte a) (popQ u)] ++ tailActs c (tailOps s.cfg c idx (indexCrosses a idx s.regs)),
      ?_, ?_, List.forall_mem_append.mpr ⟨?_, ?_⟩⟩
    · rw [run, runAbsolute, runTail_eq_runActs, runActs_append]
      rfl
    · rw [cpuTicks_absolute cls entry bytes, List.length_append, tailActs, List.length_map, List.length_cons, List.length_cons,
        List.length_singleton]
      omega
    · simpa using ⟨(actOf_dispatch entry op).popped, (actOf_absLo i _).popped, (actOf_absHi i c idx _).popped⟩
    · exact fun act => actOf_of_mem_tailActs (by rw [entry])
  | branch op o off run entry bytes =>
    have hstart : ∀ act ∈ [fun u => dispatch op ⟨.branch o, .relative⟩ (popQ u), fun u => branchCheck (.branch o) off (popQ u)],
        ActOf i act := by
      simpa using ⟨(actOf_dispatch entry op).popped, (actOf_branchCheck i o off).popped⟩
    rw [run, runBranch, cpuTicks_branch entry bytes]
    cases branchCond o s.regs.p with
    | false => exact ⟨_, rfl, rfl, hstart⟩
    | true =>
      cases crossesPage (branchTarget (s.pc + 2) off) (s.pc + 2) && s.cfg.branchPagePenalty with
      | false =>
        refine ⟨_ ++ [fun u => branchTake (popQ u)], (runActs_append _ _ _).symm ▸ rfl, rfl,
          List.forall_mem_append.mpr ⟨hstart, ?_⟩⟩
        simpa using (actOf_branchTake i).popped
      | true =>
        refine ⟨_ ++ [fun u => branchTake (popQ u), popQ], (runActs_append _ _ _).symm ▸ rfl, rfl,
          List.forall_mem_append.mpr ⟨hstart, ?_⟩⟩
        simpa using ⟨(actOf_branchTake i).popped, (actOf_id i).popped⟩

/-- What every act of the instruction keeps through its tick, the instruction keeps from its decode tick on. -/
theorem runActs_keeps {i : Instr} {P : State → Prop} (hP : ∀ act u, ActOf i act → P u → P (cycle act u)) {acts : List (State → State)}
    (hacts : ∀ act ∈ acts, ActOf i act) {s : State} (hs : P s) : P (runActs acts s) := by
  induction acts generalizing s with
  | nil => exact hs
  | cons act acts ih => exact ih (fun a ha => hacts a (.tail _ ha)) (hP act s (hacts act (.head _)) hs)

theorem runActs_halted {s : State} {r : HaltRecord} (h : s.halt = some r) (acts : List (State → State)) : runActs acts s = s := by
  induction acts with
  | nil => rfl
  | cons act acts ih =>
    change runActs acts (cycle act s) = s
    rw [cycle_halted h, ih]

/-! ### Completion and time -/

/-- Settles O8: a meaning is a run of acts, and a master tick is a state. -/
theorem everyInstructionHasANextState : Obligations.EveryInstructionHasANextState := by
  have hexec : ∀ (i : Instr) (s : State), ∃ t, exec i s = .next t := fun i s =>
    let ⟨_, h, _⟩ := exec_acts i s
    ⟨_, h⟩
  refine ⟨hexec, fun s => ?_⟩
  unfold step
  split
  · exact hexec _ s
  · exact ⟨_, rfl⟩

/-- A tick that ends running takes twelve master ticks (R344). -/
theorem cycle_t {act : State → State} {u : State} (hc : CpuOnly u (act u)) (h : (cycle act u).halt = none) :
    (cycle act u).t = u.t + 12 := by
  obtain ⟨r, a, q, c, x, y, hact⟩ := hc
  have hu := (running_of_cycle h).1
  rw [cycle_running hu] at h ⊢
  rw [finishTick_running (by rwa [finishTick_halt] at h)]
  dsimp only
  rw [busStep_t, hact]

theorem runActs_t {i : Instr} {acts : List (State → State)} (hacts : ∀ act ∈ acts, ActOf i act) {s : State}
    (h : (runActs acts s).halt = none) : s.halt = none ∧ (runActs acts s).t = s.t + 12 * acts.length := by
  induction acts generalizing s with
  | nil => exact ⟨h, rfl⟩
  | cons act acts ih =>
    obtain ⟨hrun, ht⟩ := ih (s := cycle act s) (fun a ha => hacts a (.tail _ ha)) h
    refine ⟨(running_of_cycle hrun).1, ?_⟩
    change (runActs acts (cycle act s)).t = _
    rw [ht, cycle_t ((hacts act (.head _)).cpuOnly s) hrun, List.length_cons]
    omega

/-- Settles O50: one tick for the decode step and one for each act. -/
theorem instructionsTakeTheTicksOfTheTable : Obligations.InstructionsTakeTheTicksOfTheTable := by
  intro i s t hexec ht
  obtain ⟨acts, hrun, hlen, hacts⟩ := exec_acts i s
  obtain rfl := Host.Outcome.next.inj (hrun.symm.trans hexec)
  obtain ⟨hdecode, htime⟩ := runActs_t hacts ht
  rw [htime, cycle_t ⟨_, _, _, _, _, _, rfl⟩ hdecode, ← hlen]
  omega

/-! ### Registers and flags -/

/-- A relation that every hook of the instruction's class keeps holds between the registers before and after it, halts included. -/
theorem exec_regs {i : Instr} {R : Regs → Regs → Prop} (hrefl : ∀ r, R r r) (htrans : ∀ {r r' r''}, R r r' → R r' r'' → R r r'')
    (hread : ∀ o b r, i.entry.cls = .read o → R r (execHook o b r)) (himplied : ∀ o r, i.entry.cls = .implied o → R r (impliedHook o r))
    {s t : State} (h : exec i s = .next t) : R s.regs t.regs := by
  have hcycle : ∀ act u, ((act u).regs = u.regs ∨ R u.regs (act u).regs) → R u.regs (cycle act u).regs := by
    intro act u hact
    cases hu : u.halt with
    | some r => rw [cycle_halted hu]; exact hrefl _
    | none =>
      rw [cycle_running hu, finishTick_regs, busStep_regs]
      obtain heq | hR := hact
      · rw [heq]; exact hrefl _
      · exact hR
  obtain ⟨acts, hrun, -, hacts⟩ := exec_acts i s
  obtain rfl := Host.Outcome.next.inj (hrun.symm.trans h)
  refine runActs_keeps (P := fun u => R s.regs u.regs) (fun act u hact hu => htrans hu (hcycle act u ?_)) hacts
    (hcycle _ s (.inl rfl))
  obtain heq | ⟨o, b, hc, heq⟩ | ⟨o, hc, heq⟩ := hact.regs u
  · exact .inl heq
  · exact .inr (heq ▸ hread o b _ hc)
  · exact .inr (heq ▸ himplied o _ hc)

theorem ne_imp_trans {α : Sort _} {a b c : α} {X : Prop} (h : b ≠ a → X) (h' : c ≠ b → X) (hne : c ≠ a) : X :=
  (em (b = a)).elim (fun e => h' (e ▸ hne)) h

/-- Which flags an instruction of a class may change (R26). -/
structure FlagFrame (cls : OpClass) (p p' : Flags) : Prop where
  b : p'.b = p.b
  i : p'.i ≠ p.i → cls = .implied .cli ∨ cls = .implied .sei
  d : p'.d ≠ p.d → cls = .implied .cld ∨ cls = .implied .sed
  v : p'.v ≠ p.v → cls ∈ [.read .adc, .read .sbc, .read .bit, .implied .clv]
  c : p'.c ≠ p.c → cls ∈ [.read .adc, .read .sbc, .read .cmp, .read .cpx, .read .cpy, .implied .asl,
    .implied .lsr, .implied .rol, .implied .ror, .implied .clc, .implied .sec]
  zn : p'.z ≠ p.z ∨ p'.n ≠ p.n → (∃ o, cls = .read o) ∨ cls ∈ [.implied .tax, .implied .tay, .implied .txa, .implied .tya,
    .implied .tsx, .implied .inx, .implied .iny, .implied .dex, .implied .dey, .implied .asl, .implied .lsr, .implied .rol,
    .implied .ror]

theorem flagFrame_execHook (o : ReadOp) (m : Byte) (r : Regs) : FlagFrame (.read o) r.p (execHook o m r).p := by
  cases o <;> constructor <;>
    simp [execHook, hookLda, hookLdx, hookLdy, hookAdc, hookSbc, hookAnd, hookOra, hookEor, hookCmp, hookCpx, hookCpy, hookBit, setNZ,
      setFlag, setSumFlags, setCompareFlags, setBitFlags]

theorem flagFrame_impliedHook (o : ImpliedOp) (r : Regs) : FlagFrame (.implied o) r.p (impliedHook o r).p := by
  cases o <;> constructor <;>
    simp [impliedHook, hookTax, hookTay, hookTxa, hookTya, hookTsx, hookTxs, hookInx, hookIny, hookDex, hookDey, hookAsl, hookLsr,
      hookRol, hookRor, hookClc, hookSec, hookCli, hookSei, hookClv, hookCld, hookSed, hookNop, setNZ, setFlag]

theorem FlagFrame.trans {c : OpClass} {p p' p'' : Flags} (h : FlagFrame c p p') (h' : FlagFrame c p' p'') : FlagFrame c p p'' where
  b := h'.b.trans h.b
  i := ne_imp_trans h.i h'.i
  d := ne_imp_trans h.d h'.d
  v := ne_imp_trans h.v h'.v
  c := ne_imp_trans h.c h'.c
  zn hne := hne.elim (ne_imp_trans (fun e => h.zn (.inl e)) fun e => h'.zn (.inl e))
    (ne_imp_trans (fun e => h.zn (.inr e)) fun e => h'.zn (.inr e))

theorem exec_flagFrame {i : Instr} {s t : State} (h : exec i s = .next t) : FlagFrame i.entry.cls s.regs.p t.regs.p :=
  exec_regs (R := fun r r' => FlagFrame i.entry.cls r.p r'.p) (fun _ => by constructor <;> simp) FlagFrame.trans
    (fun o b r hc => hc ▸ flagFrame_execHook o b r) (fun o r hc => hc ▸ flagFrame_impliedHook o r) h

/-- The instruction of each implied operation. -/
def impliedInstr : ImpliedOp → Instr
  | .tax => .tax | .tay => .tay | .txa => .txa | .tya => .tya | .tsx => .tsx | .txs => .txs
  | .inx => .inx | .iny => .iny | .dex => .dex | .dey => .dey
  | .asl => .asl | .lsr => .lsr | .rol => .rol | .ror => .ror
  | .clc => .clc | .sec => .sec | .cli => .cli | .sei => .sei | .clv => .clv | .cld => .cld | .sed => .sed | .nop => .nop

theorem eq_impliedInstr {i : Instr} {o : ImpliedOp} (h : i.entry.cls = .implied o) : i = impliedInstr o := by
  cases i <;> cases h <;> rfl

/-- Settles O46: the hooks of each class write no other flag. -/
theorem onlyTheListedInstructionsWriteAFlag : Obligations.OnlyTheListedInstructionsWriteAFlag := by
  intro i s t h
  have hf := exec_flagFrame h
  exact ⟨hf.b, fun hi => (hf.i hi).imp eq_impliedInstr eq_impliedInstr, fun hd => (hf.d hd).imp eq_impliedInstr eq_impliedInstr,
    hf.v, hf.c, hf.zn⟩

/-- Which registers an instruction of a class may change (R22, R178, R220). -/
structure RegsFrame (c : OpClass) (r r' : Regs) : Prop where
  sp : r'.sp ≠ r.sp → c = .implied .txs
  a : r'.a ≠ r.a → c ∈ [.read .lda, .read .adc, .read .sbc, .read .and, .read .ora, .read .eor, .implied .txa,
    .implied .tya, .implied .asl, .implied .lsr, .implied .rol, .implied .ror]
  x : r'.x ≠ r.x → c ∈ [.read .ldx, .implied .tax, .implied .tsx, .implied .inx, .implied .dex]
  y : r'.y ≠ r.y → c ∈ [.read .ldy, .implied .tay, .implied .iny, .implied .dey]

theorem regsFrame_execHook (o : ReadOp) (m : Byte) (r : Regs) : RegsFrame (.read o) r (execHook o m r) := by
  cases o <;> constructor <;>
    simp [execHook, hookLda, hookLdx, hookLdy, hookAdc, hookSbc, hookAnd, hookOra, hookEor, hookCmp, hookCpx, hookCpy, hookBit]

theorem regsFrame_impliedHook (o : ImpliedOp) (r : Regs) : RegsFrame (.implied o) r (impliedHook o r) := by
  cases o <;> constructor <;>
    simp [impliedHook, hookTax, hookTay, hookTxa, hookTya, hookTsx, hookTxs, hookInx, hookIny, hookDex, hookDey, hookAsl, hookLsr,
      hookRol, hookRor, hookClc, hookSec, hookCli, hookSei, hookClv, hookCld, hookSed, hookNop]

theorem RegsFrame.trans {c : OpClass} {r r' r'' : Regs} (h : RegsFrame c r r') (h' : RegsFrame c r' r'') : RegsFrame c r r'' :=
  ⟨ne_imp_trans h.sp h'.sp, ne_imp_trans h.a h'.a, ne_imp_trans h.x h'.x, ne_imp_trans h.y h'.y⟩

/-- Settles O47: the hooks of each class write no other register. -/
theorem onlyTheDestinationRegisterChanges : Obligations.OnlyTheDestinationRegisterChanges := by
  intro i s t h
  obtain ⟨hsp, ha, hx, hy⟩ := exec_regs (R := RegsFrame i.entry.cls) (fun _ => by constructor <;> simp) RegsFrame.trans
    (fun o b r hc => hc ▸ regsFrame_execHook o b r) (fun o r hc => hc ▸ regsFrame_impliedHook o r) h
  exact ⟨fun hne => eq_impliedInstr (hsp hne), ha, hx, hy⟩

/-! ### Memory -/

/-- What a tick that reads leaves: RAM, the PPU's log, the parameters. -/
def SameMemory (s u : State) : Prop := u.ram = s.ram ∧ u.ppu.log = s.ppu.log ∧ u.cfg = s.cfg

theorem SameMemory.trans {s u v : State} (h : SameMemory s u) (h' : SameMemory u v) : SameMemory s v :=
  ⟨h'.1.trans h.1, h'.2.1.trans h.2.1, h'.2.2.trans h.2.2⟩

theorem SameMemory.peek {s u : State} (h : SameMemory s u) {a : Addr} (ha : isStatus a = false) : peek u a = Machine.peek s a :=
  peek_congr h.1 h.2.2 ha

/-- The time after a bus step writes no memory. -/
theorem finishTick_sameMemory (s : State) : SameMemory s (finishTick s) := by
  unfold finishTick
  split <;> exact ⟨rfl, rfl, rfl⟩

/-- A read writes no memory (R70). -/
theorem busStep_sameMemory {s : State} (h : s.tx.dir = .read) : SameMemory s (busStep s) := by
  rw [busStep_eq_setHalt]
  simp only [resolveTx, h, memRead, readEffect_eq, ppuAfterRead]
  refine ⟨rfl, ?_, rfl⟩
  simp only [setHalt_ppu, setTx_ppu, setPpu_ppu]
  split <;> rfl

/-- A tick whose bus step reads writes no memory. -/
theorem cycle_sameMemory {act : State → State} {u : State} (hc : CpuOnly u (act u)) (hd : u.halt = none → (act u).tx.dir = .read) :
    SameMemory u (cycle act u) := by
  cases hu : u.halt with
  | some r => rw [cycle_halted hu]; exact ⟨rfl, rfl, rfl⟩
  | none =>
    rw [cycle_running hu]
    obtain ⟨hr, hl, hf⟩ := finishTick_sameMemory (busStep (act u))
    obtain ⟨hr', hl', hf'⟩ := busStep_sameMemory (hd hu)
    obtain ⟨r, a, q, c, x, y, hact⟩ := hc
    exact ⟨hr.trans (hr'.trans (by rw [hact])), hl.trans (hl'.trans (by rw [hact])), hf.trans (hf'.trans (by rw [hact]))⟩

/-- Settles O48: without a store no act sets a write, so every bus step reads. -/
theorem onlyStoresChangeMemory : Obligations.OnlyStoresChangeMemory := by
  intro i s t hstore h
  obtain ⟨acts, hrun, -, hacts⟩ := exec_acts i s
  obtain rfl := Host.Outcome.next.inj (hrun.symm.trans h)
  have hkeeps : ∀ act u, ActOf i act → SameMemory s u ∧ (u.halt = none → u.tx.dir = .read) →
      SameMemory s (cycle act u) ∧ ((cycle act u).halt = none → (cycle act u).tx.dir = .read) := by
    intro act u hact ⟨hsame, hdir⟩
    have hread : u.halt = none → (act u).tx.dir = .read := by
      intro hu
      cases hd : (act u).tx.dir with
      | read => rfl
      | write =>
        obtain hw | ⟨o, ho⟩ := hact.dir u hd
        · rw [hdir hu] at hw
          cases hw
        · exact absurd ho (hstore o)
    refine ⟨hsame.trans (cycle_sameMemory (hact.cpuOnly u) hread), fun hrun => ?_⟩
    have hu := (running_of_cycle hrun).1
    rw [cycle_running hu, finishTick_tx, busStep_tx_dir]
    exact hread hu
  have hsame : SameMemory s (runActs acts (cycle decodeStep s)) := by
    refine (runActs_keeps hkeeps hacts ⟨cycle_sameMemory ⟨_, _, _, _, _, _, rfl⟩ fun _ => rfl, fun hd => ?_⟩).1
    rw [cycle_running (running_of_cycle hd).1, finishTick_tx, busStep_tx_dir]
    rfl
  exact ⟨hsame.1, hsame.2.1, fun a ha => hsame.peek ha⟩

end Sys2Proof.Machine

/-! PROOFS. Halts inside an instruction, the data access of the absolute forms, and SBC (60_exceptions.md §1, §2, 40_scheduler.md §4,
42_alu.md §1). -/

namespace Sys2Proof.Machine

/-! ### Halts in the first two ticks -/

/-- Settles O32: the decode tick reads the opcode, and Dispatch halts before its bus step reads it again (R330-R332). -/
theorem undefinedOpcodeHaltsInDispatch : Obligations.UndefinedOpcodeHaltsInDispatch := by
  intro op _ s hs hb
  have hpc := hb.of_mem (List.mem_singleton.mpr rfl)
  change Host.Outcome.next (opened op ⟨.undef, .noMode⟩ s) = _
  rw [opened, cycle_decodeStep hs hpc, cycle_running (by exact hs.1)]
  generalize hu : dispatch op ⟨.undef, .noMode⟩ (popQ (midway s s.regs (s.pc + 1) s.scratch [.dispatch] [] s.pc)) = u
  have hrec : u = { midway s s.regs (s.pc + 1) { s.scratch with op := op } [] [] s.pc with
      halt := some ⟨.undefinedOpcode op s.pc, s.regs, s.pc + 1, ⟨s.pc, busByte s [] s.pc, .read⟩, s.t + 12⟩ } := by
    have hback : s.pc + 1 - 1 = s.pc := BitVec.add_sub_cancel _ _
    rw [← hu]
    simp only [dispatch, raiseHalt_eq, popQ, setQ, setScratch, setHalt, haltRecord, midway, ranReading, hs.1, Option.getD_none,
      hback, List.length_nil, List.tail_cons, Nat.zero_add, Nat.mul_one]
  have hbyte : peek u s.pc = busByte s [s.pc] s.pc :=
    peek_midway (s := s) (reads := [s.pc]) (by rw [hrec]; rfl) (by rw [hrec]; rfl) (by rw [hrec]; rfl) _
  rw [busStep_read (a := s.pc) (d := busByte s [] s.pc) (by rw [hrec]; rfl) (by rw [hrec]; exact hpc), hbyte,
    finishTick_stopped (by rw [hrec]; rfl), hrec]
  simp [midway, ranReading, setPpu, setTx, hs.2]

/-- Settles O35: the bus step of the decode tick halts, and no further tick has an effect (R333, R336). -/
theorem unmappedFetchHaltsAtTheDecodeTick : Obligations.UnmappedFetchHaltsAtTheDecodeTick := by
  intro i s hs hp hm
  have hdecode := decodeStep_eq hs.2
  have hbus := (unmappedBusStepHaltsOnlyUnderFault (decodeStep s) (by rw [hdecode]; exact hm)).2.1
    (by rw [hdecode]; exact hp) (by rw [hdecode]; exact hs.1)
  have htick : cycle decodeStep s = { s with
      pc := s.pc + 1
      q := [.dispatch]
      tx := ⟨s.pc, 0x00, .read⟩
      halt := some ⟨.unmappedAccess s.pc .read, s.regs, s.pc + 1, ⟨s.pc, 0x00, .read⟩, s.t⟩
      ppu := ppuTick s.cfg s.ppu
      t := s.t + 1 } := by
    rw [cycle_running hs.1, hbus, finishTick_stopped rfl, hdecode]
    rfl
  obtain ⟨acts, hrun, -, -⟩ := exec_acts i s
  rw [hrun, htick, runActs_halted rfl]

/-! ### The data access of an absolute form -/

theorem runs_absolute {i : Instr} {c : OpClass} {idx : Index} (he : i.entry = ⟨c, .absolute idx⟩) (hc : OperandClass c) :
    ∃ op a, (∀ s, exec i s = .next (runAbsolute op c idx a s)) ∧ encode i = [op, loByte a, hiByte a] := by
  cases exec_runs i with
  | absolute op c' idx' a cls run entry bytes =>
    obtain ⟨rfl, hidx⟩ := Entry.mk.inj (entry.symm.trans he)
    obtain rfl := Mode.absolute.inj hidx
    exact ⟨op, a, run, bytes⟩
  | jump op a run entry bytes =>
    obtain ⟨rfl, -⟩ := Entry.mk.inj (entry.symm.trans he)
    obtain ⟨o, h⟩ | ⟨o, h⟩ := hc <;> cases h
  | implied op o m run entry bytes =>
    obtain ⟨rfl, -⟩ := Entry.mk.inj (entry.symm.trans he)
    obtain ⟨o, h⟩ | ⟨o, h⟩ := hc <;> cases h
  | immediate op o m run entry bytes => exact nomatch entry.symm.trans he
  | zeroPage op c z cls run entry bytes => exact nomatch entry.symm.trans he
  | branch op o off run entry bytes => exact nomatch entry.symm.trans he
  | undefined op run entry bytes => exact nomatch entry.symm.trans he

/-- Whether an absolute form owes a penalty tick (R142, R143). -/
def penaltyOwed (c : OpClass) (idx : Index) (a : Addr) (s : State) : Bool :=
  match c with
  | .read _ => indexCrosses a idx s.regs && s.cfg.idxPagePenalty
  | .store _ => (idx != .noIndex) && s.cfg.idxPagePenalty
  | .implied _ | .branch _ | .jump | .undef => false

section
variable {i : Instr} {idx : Index} {op : Byte} {a : Addr} (s : State)

theorem busRow_read {o : ReadOp} (he : i.entry = ⟨.read o, .absolute idx⟩) (hb : encode i = [op, loByte a, hiByte a]) :
    busRow i s = (absoluteFetches s (penaltyOwed (.read o) idx a s)).map (Prod.mk .read) ++
      [(.read, operandAddr i s), (.read, operandAddr i s)] := by
  have hcross : ((idx != .noIndex) && operandCrosses i s && s.cfg.idxPagePenalty) = penaltyOwed (.read o) idx a s := by
    rw [operandCrosses_absolute he hb]
    cases idx <;> simp [penaltyOwed, indexCrosses]
  simp only [busRow, he, hcross, absoluteFetches]
  cases penaltyOwed (.read o) idx a s <;> rfl

theorem busRow_store {o : StoreOp} (he : i.entry = ⟨.store o, .absolute idx⟩) :
    busRow i s = (absoluteFetches s (penaltyOwed (.store o) idx a s)).map (Prod.mk .read) ++ [(.write, operandAddr i s)] := by
  have howed : ((idx != .noIndex) && s.cfg.idxPagePenalty) = penaltyOwed (.store o) idx a s := rfl
  simp only [busRow, he, howed, absoluteFetches]
  cases penaltyOwed (.store o) idx a s <;> rfl

theorem cpuTicks_read {o : ReadOp} (he : i.entry = ⟨.read o, .absolute idx⟩) (hb : encode i = [op, loByte a, hiByte a]) :
    cpuTicks i s = (absoluteFetches s (penaltyOwed (.read o) idx a s)).length + 2 := by
  rw [cpuTicks_absolute (.inl ⟨o, rfl⟩) he hb, tailOps, penaltyOwed, absoluteFetches]
  cases indexCrosses a idx s.regs && s.cfg.idxPagePenalty <;> rfl

theorem cpuTicks_store {o : StoreOp} (he : i.entry = ⟨.store o, .absolute idx⟩) (hb : encode i = [op, loByte a, hiByte a]) :
    cpuTicks i s = (absoluteFetches s (penaltyOwed (.store o) idx a s)).length + 1 := by
  rw [cpuTicks_absolute (.inr ⟨o, rfl⟩) he hb, tailOps, penaltyOwed, absoluteFetches]
  cases (idx != .noIndex) && s.cfg.idxPagePenalty <;> rfl

end

/-- The addresses of the ticks before the data access are the fetches. -/
theorem busAddrs_fetches {i : Instr} {s : State} {fetches : List Addr} {rest : List (Dir × Addr)}
    (h : busRow i s = fetches.map (Prod.mk .read) ++ rest) : busAddrs fetches.length i s = fetches := by
  rw [busAddrs, h, List.take_left' (List.length_map _), List.map_map]
  exact List.map_id _

/-- The absolute form up to its data access, a penalty tick included (R138-R143). -/
theorem runAbsolute_eq_tail {s : State} (hs : Ready s) (hb : BusClear s [s.pc, s.pc + 1, s.pc + 2]) {c : OpClass}
    (hc : OperandClass c) (op : Byte) (idx : Index) (a : Addr) {ms : List MicroOp}
    (hms : tailOps s.cfg c idx (indexCrosses a idx s.regs) = (if penaltyOwed c idx a s then [.penalty] else []) ++ ms) :
    ∃ reads, reads ++ [s.pc + 2] = absoluteFetches s (penaltyOwed c idx a s) ∧
      runAbsolute op c idx a s =
        runTail c ms (midway s s.regs (s.pc + 3) (scratchEa s op (loByte a) (indexedAddr a idx s.regs)) ms reads (s.pc + 2)) := by
  refine ⟨_, absoluteFetches_eq s _, ?_⟩
  rw [runAbsolute, absolute_addressed hs hb hc, hms, runTail_penalty hs.1 (hb.of_mem (by simp))]

/-- A tick whose bus step halts at an unmapped address under `Fault`, inside an instruction (R331-R334). -/
theorem cycle_midway_fault {s : State} (hs : s.halt = none) (hp : s.cfg.unmappedPolicy = .fault) {act : State → State} {r r' : Regs}
    {pc pc' : Addr} {c c' : Scratch} {q q' : List MicroOp} {reads : List Addr} {last a : Addr} {d : Byte} {dir : Dir}
    (hact : act (midway s r pc c q reads last) = { midway s r' pc' c' q' reads last with tx := ⟨a, d, dir⟩ })
    (ha : isMapped a = false) :
    let x : Tx := ⟨a, if dir = .read then 0x00 else d, dir⟩
    let t := s.t + 12 * (reads ++ [last]).length
    cycle act (midway s r pc c q reads last) = { midway s r' pc' c' q' reads last with
      tx := x
      halt := some ⟨.unmappedAccess a dir, r', pc', x, t⟩
      ppu := ppuTick s.cfg (ppuRun s.cfg (reads ++ [last]) s.ppu)
      t := t + 1 } := by
  intro x t
  have ht : s.t + 12 * (reads.length + 1) = t := by simp [t]
  have hbus := (unmappedBusStepHaltsOnlyUnderFault (act (midway s r pc c q reads last)) (by rw [hact]; exact ha)).2.1
    (by rw [hact]; exact hp) (by rw [hact]; exact hs)
  rw [cycle_running (by exact hs), hbus, finishTick_stopped rfl, hact]
  simp only [midway, ranReading, ht]
  rfl

/-- The tick of the data access, where it halts: the state that Safety.lean names (R333, R336). -/
theorem cycle_access_fault {i : Instr} {c : OpClass} {idx : Index} {op : Byte} {a : Addr} {s : State}
    (he : i.entry = ⟨c, .absolute idx⟩) (hb : encode i = [op, loByte a, hiByte a]) (hs : Ready s)
    (hp : s.cfg.unmappedPolicy = .fault) (hea : isMapped (operandAddr i s) = false) {act : State → State} {q rest : List MicroOp}
    {fetches reads : List Addr} {dir : Dir} {d : Byte} (hfetches : busAddrs fetches.length i s = fetches)
    (hreads : reads ++ [s.pc + 2] = fetches)
    (hact : act (midway s s.regs (s.pc + 3) (scratchEa s op (loByte a) (indexedAddr a idx s.regs)) q reads (s.pc + 2)) =
      { midway s s.regs (s.pc + 3) (scratchEa s op (loByte a) (indexedAddr a idx s.regs)) rest reads (s.pc + 2) with
        tx := ⟨indexedAddr a idx s.regs, d, dir⟩ }) :
    cycle act (midway s s.regs (s.pc + 3) (scratchEa s op (loByte a) (indexedAddr a idx s.regs)) q reads (s.pc + 2)) =
      haltedAtAccess fetches.length dir (if dir = .read then 0x00 else d) rest i s := by
  have hop : (encode i).getD 0 0 = op := by rw [hb]; rfl
  have hlo : (operandBytes i).1 = loByte a := by rw [operandBytes, hb]; rfl
  rw [operandAddr_absolute he hb] at hea
  rw [cycle_midway_fault hs.1 hp hact hea, haltedAtAccess, hfetches, hreads, hop, hlo, operandAddr_absolute he hb]
  rfl

/-- Settles O36: up to its data access the instruction only reads what is mapped; that access halts, and the Commit tick of a read has no
effect (R333, R336). -/
theorem unmappedDataAccessLeavesTheRegister : Obligations.UnmappedDataAccessLeavesTheRegister := by
  intro i idx s hm hs hp hmapped hea
  have hclear : BusClear s [s.pc, s.pc + 1, s.pc + 2] := .inr hmapped
  refine ⟨fun o ho => ?_, fun o ho => ?_⟩
  · have he : i.entry = ⟨.read o, .absolute idx⟩ := by rw [← ho, ← hm]
    obtain ⟨op, a, hrun, hb⟩ := runs_absolute he (.inl ⟨o, rfl⟩)
    obtain ⟨reads, hreads, htail⟩ := runAbsolute_eq_tail hs hclear (.inl ⟨o, rfl⟩) op idx a (ms := [.access, .commit]) rfl
    have haccess := cycle_access_fault he hb hs hp hea (act := fun v => tailOp (.read o) .access (popQ v))
      (q := [.access, .commit]) (rest := [.commit]) (dir := .read) (busAddrs_fetches (busRow_read s he hb)) hreads rfl
    rw [hrun, htail, cpuTicks_read s he hb, Nat.add_sub_cancel]
    rw [runTail_cons, haccess, runTail_cons, cycle_halted rfl]
    rfl
  · have he : i.entry = ⟨.store o, .absolute idx⟩ := by rw [← ho, ← hm]
    obtain ⟨op, a, hrun, hb⟩ := runs_absolute he (.inr ⟨o, rfl⟩)
    obtain ⟨reads, hreads, htail⟩ := runAbsolute_eq_tail hs hclear (.inr ⟨o, rfl⟩) op idx a (ms := [.store]) rfl
    have hstore := cycle_access_fault he hb hs hp hea (act := fun v => tailOp (.store o) .store (popQ v))
      (q := [.store]) (rest := []) (dir := .write) (busAddrs_fetches (busRow_store s he)) hreads rfl
    rw [hrun, htail, cpuTicks_store s he hb, Nat.add_sub_cancel]
    rw [runTail_cons, hstore]
    rfl

/-! ### SBC -/

/-- The complement of SBC, in the integers (R223). -/
theorem toNat_xor_0xFF (m : Byte) : (m ^^^ 0xFF).toNat = 255 - m.toNat := by
  have hnot : m ^^^ 0xFF = ~~~m := BitVec.xor_allOnes
  rw [hnot, BitVec.toNat_not]

/-- The hook of SBC in the integers: the sum with the complement is 256 above the difference with borrow (R223). -/
theorem hookSbc_eq (m : Byte) (r : Regs) {diff : Int} (hdiff : diff = (r.a.toNat : Int) - m.toNat - (1 - r.p.c.toNat)) :
    hookSbc m r = { r with
      a := BitVec.ofInt 8 diff
      p := withNZ (BitVec.ofInt 8 diff) { r.p with
        c := decide (0 ≤ diff)
        v := (r.a.getLsbD 7 != m.getLsbD 7) && ((BitVec.ofInt 8 diff).getLsbD 7 != r.a.getLsbD 7) } } := by
  have hm := m.isLt
  have hwide : (sumWide r.a (m ^^^ 0xFF) (carryIn r.p) : Int) = diff + 256 := by
    rw [sumWide, toNat_xor_0xFF, carryIn, hdiff]
    omega
  have hres : sumByte r.a (m ^^^ 0xFF) (carryIn r.p) = BitVec.ofInt 8 diff := by
    apply BitVec.eq_of_toNat_eq
    rw [sumByte, BitVec.toNat_ofNat, BitVec.toNat_ofInt]
    omega
  have hcarry : decide (sumWide r.a (m ^^^ 0xFF) (carryIn r.p) > 255) = decide (0 ≤ diff) :=
    decide_eq_decide.mpr (by omega)
  have hbit : (r.a.getLsbD 7 == (m ^^^ 0xFF).getLsbD 7) = (r.a.getLsbD 7 != m.getLsbD 7) := by
    rw [BitVec.getLsbD_xor]
    cases r.a.getLsbD 7 <;> cases m.getLsbD 7 <;> rfl
  simp only [hookSbc, setNZ_eq_withNZ, setSumFlags_eq, hres, hcarry, hbit]

/-- Settles O22: the hook of SBC on each of its five schedules. -/
theorem sbcSubtractsWithBorrow : Obligations.SbcSubtractsWithBorrow := by
  unfold Obligations.SbcSubtractsWithBorrow
  intro effect
  have heffect : execHook .sbc = effect := by
    funext m r
    exact hookSbc_eq m r rfl
  exact ⟨fun _ => immediateForm (fun _ => rfl) rfl heffect, fun _ => zeroPageForm (fun _ => rfl) rfl heffect,
    fun _ => absoluteForm .noIndex (fun _ => rfl) rfl heffect, fun _ => absoluteForm .x (fun _ => rfl) rfl heffect,
    fun _ => absoluteForm .y (fun _ => rfl) rfl heffect⟩

end Sys2Proof.Machine

/-! PROOFS. Status reads, the reset sequence and bus traffic (70_reset_and_hazards.md §1, §3, 40_scheduler.md §4). -/

namespace Sys2Proof.Machine

/-! ### A vertical blank set during a read -/

theorem statusByte_bit7 (p : Ppu) : (statusByte p).getLsbD 7 = p.vbl := by
  unfold statusByte
  cases p.vbl <;> cases p.s0hit <;> cases p.sovf <;> rfl

/-- A status read of a clear latch changes nothing. -/
theorem ppuAfterRead_of_clear {a : Addr} {p : Ppu} (h : p.vbl = false) : ppuAfterRead a p = p := by
  unfold ppuAfterRead
  split
  · rw [← h]
  · rfl

theorem isMapped_of_isStatus {a : Addr} (h : isStatus a = true) : isMapped a = true := by
  simp [isMapped, decodeAddr_ppu_of_isStatus h]

/-- A load and BIT take N from bit 7 of the operand (R180-R182, R230). -/
theorem execHook_n {o : ReadOp} (ho : o ∈ [ReadOp.lda, .ldx, .ldy, .bit]) (m : Byte) (r : Regs) :
    (execHook o m r).p.n = m.getLsbD 7 := by
  simp only [List.mem_cons, List.not_mem_nil, or_false] at ho
  obtain rfl | rfl | rfl | rfl := ho
  · simp [execHook, hookLda, setNZ_eq_withNZ, withNZ]
  · simp [execHook, hookLdx, setNZ_eq_withNZ, withNZ]
  · simp [execHook, hookLdy, setNZ_eq_withNZ, withNZ]
  · simp [execHook, hookBit, setBitFlags_eq]

/-- Settles O52: the Access tick reads the latch clear, three PPU ticks set it, and the Commit tick reads it set and clears it. -/
theorem vblankSetDuringAReadIsLost : Obligations.VblankSetDuringAReadIsLost := by
  intro i o idx s he hs hb hstatus p hclear hset
  obtain ⟨op, a, hrun, hbytes⟩ := runs_absolute he (.inl ⟨o, rfl⟩)
  obtain ⟨reads, hreads, htail⟩ := runAbsolute_eq_tail hs hb (.inl ⟨o, rfl⟩) op idx a (ms := [.access, .commit]) rfl
  have hp : p = ppuRun s.cfg (reads ++ [s.pc + 2]) s.ppu := by
    rw [hreads, ← busAddrs_fetches (busRow_read s he hbytes), ← Nat.add_sub_cancel (List.length _) 2, ← cpuTicks_read s he hbytes]
  rw [operandAddr_absolute he hbytes] at hstatus
  rw [runTail_access_commit hs (.inr (isMapped_of_isStatus hstatus))] at htail
  have hoperand : busByte s (reads ++ [s.pc + 2]) (indexedAddr a idx s.regs) = statusByte p := by
    rw [busByte, if_pos hstatus, hp]
  have hlater : ppuRun s.cfg (reads ++ [s.pc + 2] ++ [indexedAddr a idx s.regs]) s.ppu = ppuThree s.cfg p := by
    rw [ppuRun_append, ← hp, ppuAfterRead_of_clear hclear]
  have hbit : (statusByte p).getLsbD 7 = false := (statusByte_bit7 p).trans hclear
  refine ⟨_, (hrun s).trans (congrArg _ htail), hbit, ?_, fun ho => ?_, ?_, ?_⟩
  · simp only [ranReading, hoperand]
  · simp only [ranReading, hoperand, execHook_n ho, hbit]
  · simp only [ranReading, busByte, hstatus, if_true, hlater, statusByte_bit7, hset]
  · simp only [ranReading]
    rw [ppuRun_append, hlater, ppuAfterRead, if_pos hstatus]

/-! ### The reset sequence -/

theorem ppuThree_pos (cfg : Config) (p : Ppu) : (ppuThree cfg p).pos = (p.pos + 3) % cfg.frame := by
  simp [ppuThree, Nat.add_assoc]

/-- A block inside its reset sequence: the transaction register still reads 0x0000 (R37, R400). -/
def duringReset (cfg : Config) (d : Draws) (q : List MicroOp) (pc : Addr) (c : Scratch) (b : Byte) (p : Ppu) (t : Nat) : State :=
  { State.construct cfg d with q := q, pc := pc, scratch := c, tx := ⟨0x0000, b, .read⟩, ppu := p, t := t }

section
variable (cfg : Config) (d : Draws) (q : List MicroOp) (pc : Addr) (c : Scratch) (b : Byte) (p : Ppu) (t : Nat)

/-- The three micro-operations of the reset sequence (R401). -/
theorem clk_reset0 : clk (duringReset cfg d (.reset0 :: q) pc c b p t) = duringReset cfg d q pc c b p t := rfl

theorem clk_reset1 : clk (duringReset cfg d (.reset1 :: q) pc c b p t) =
    duringReset cfg d q pc { c with lo := prgByte cfg 0x7FFC } b p t := rfl

theorem clk_reset2 : clk (duringReset cfg d (.reset2 :: q) pc c b p t) =
    duringReset cfg d q (concat (prgByte cfg 0x7FFD) c.lo) c b p t := rfl

end

/-- A CPU tick of the reset sequence: the bus step reads RAM, which has no side effect (R401). -/
theorem cycle_clk_duringReset {cfg : Config} {d : Draws} {q q' : List MicroOp} {pc pc' : Addr} {c c' : Scratch} {b : Byte} {p : Ppu}
    {t : Nat} (h : clk (duringReset cfg d q pc c b p t) = duringReset cfg d q' pc' c' b p t) :
    ∃ b', cycle clk (duringReset cfg d q pc c b p t) = duringReset cfg d q' pc' c' b' (ppuThree cfg p) (t + 12) := by
  refine ⟨peek (duringReset cfg d q' pc' c' b p t) 0x0000, ?_⟩
  rw [cycle_read (a := 0x0000) (d := b) rfl (by rw [h]; rfl) (by rw [h]; rfl) (.inr (by decide)), h]
  rfl

/-- Settles O14: the three micro-operations of the reset sequence, a CPU tick each; the second and the third read the vector. -/
theorem resetSequenceLoadsTheVector : Obligations.ResetSequenceLoadsTheVector := by
  intro cfg d s
  have hs : s = (cycle clk)^[3] (duringReset cfg d [.reset0, .reset1, .reset2] d.pc d.scratch 0x00 ⟨0, false, false, false, []⟩ 0) :=
    Due.runTicks_dozens (s := State.construct cfg d) ⟨rfl, rfl, rfl⟩ 3
  obtain ⟨b0, h0⟩ := cycle_clk_duringReset
    (clk_reset0 cfg d [.reset1, .reset2] d.pc d.scratch 0x00 ⟨0, false, false, false, []⟩ 0)
  obtain ⟨b1, h1⟩ := cycle_clk_duringReset (clk_reset1 cfg d [.reset2] d.pc d.scratch b0 _ (0 + 12))
  obtain ⟨b2, h2⟩ := cycle_clk_duringReset (clk_reset2 cfg d [] d.pc { d.scratch with lo := prgByte cfg 0x7FFC } b1 _ (0 + 12 + 12))
  rw [Function.iterate_succ_apply, h0, Function.iterate_succ_apply, h1, Function.iterate_succ_apply, h2, Function.iterate_zero_apply]
    at hs
  have htime : (0 + 12 + 12 + 12) % 12 = 0 := by decide
  rw [hs]
  refine ⟨rfl, rfl, rfl, rfl, ?_, rfl, rfl, (atBoundary_iff _).mpr ⟨⟨rfl, rfl, htime⟩, rfl⟩⟩
  change (ppuThree cfg (ppuThree cfg (ppuThree cfg _))).pos = _
  rw [ppuThree_pos, ppuThree_pos, ppuThree_pos]
  simp

/-! ### Bus traffic -/

/-- The next CPU tick of the trace: its transaction is the one `clk` sets, and the rest is traced from its end (R344). -/
theorem busTrace_succ {s : State} (h : Due s) (n : Nat) :
    busTrace (n + 1) s = ((clk s).tx.dir, (clk s).tx.addr) :: busTrace n (cycle clk s) := by
  rw [busTrace, h.runTicks_twelve]
  simp only [cycle_running h.running, finishTick_tx, busStep_tx_dir, busStep_tx_addr]

/-- Inside an instruction the next CPU tick is due. -/
theorem due_midway {s : State} (h : Due s) (r : Regs) (pc : Addr) (c : Scratch) (q : List MicroOp) (reads : List Addr) (last : Addr) :
    Due (midway s r pc c q reads last) := by
  refine ⟨h.running, h.clock, ?_⟩
  have ht := h.tick
  change (s.t + 12 * (reads.length + 1)) % 12 = 0
  omega

/-- A micro-operation at the front of the queue, inside an instruction (R130). -/
theorem clk_midway {s : State} (hs : s.halt = none) (r : Regs) (pc : Addr) (c : Scratch) (m : MicroOp) (ms : List MicroOp)
    (reads : List Addr) (last : Addr) :
    clk (midway s r pc c (m :: ms) reads last) = runMicroOp m (midway s r pc c ms reads last) :=
  clk_queued (s := midway s r pc c (m :: ms) reads last) hs rfl

section
variable {s : State} (hs : Due s) {r r' : Regs} {pc pc' : Addr} {c c' : Scratch} {m : MicroOp} {ms q' : List MicroOp}
  {reads : List Addr} {last a : Addr} {d : Byte} (n : Nat)
include hs

/-- A tick inside an instruction whose micro-operation sets a read of `a`, where that halts on nothing. -/
theorem busTrace_midway (hb : s.cfg.unmappedPolicy = .zero ∨ isMapped a = true)
    (hact : runMicroOp m (midway s r pc c ms reads last) = { midway s r' pc' c' q' reads last with tx := ⟨a, d, .read⟩ }) :
    busTrace (n + 1) (midway s r pc c (m :: ms) reads last) =
      (.read, a) :: busTrace n (midway s r' pc' c' q' (reads ++ [last]) a) := by
  have hclk := (clk_midway hs.running r pc c m ms reads last).trans hact
  rw [busTrace_succ (due_midway hs ..), cycle_midway hs.running hclk hb, hclk]

/-- The last tick of an instruction, whatever it leaves. -/
theorem busTrace_last {x : Tx} (hact : (runMicroOp m (midway s r pc c ms reads last)).tx = x) :
    busTrace 1 (midway s r pc c (m :: ms) reads last) = [(x.dir, x.addr)] := by
  rw [busTrace_succ (due_midway hs ..), clk_midway hs.running, hact, busTrace]

theorem busTrace_penalty (hb : s.cfg.unmappedPolicy = .zero ∨ isMapped last = true) (owed : Bool) :
    busTrace (n + if owed then 1 else 0) (midway s r pc c ((if owed then [.penalty] else []) ++ ms) reads last) =
      (if owed then [(.read, last)] else []) ++
        busTrace n (midway s r pc c ms (reads ++ if owed then [last] else []) last) := by
  cases owed with
  | false => simp
  | true => exact busTrace_midway hs n hb rfl

theorem busTrace_commit : busTrace 1 (midway s r pc c (.commit :: ms) reads last) = [(.read, last)] := by
  refine busTrace_last hs (x := ⟨last, busByte s reads last, .read⟩) ?_
  simp only [runMicroOp, commit]
  split <;> rfl

theorem busTrace_access_commit (hb : s.cfg.unmappedPolicy = .zero ∨ isMapped c.ea = true) :
    busTrace 2 (midway s r pc c [.access, .commit] reads last) = [(.read, c.ea), (.read, c.ea)] := by
  rw [busTrace_midway hs 1 (q' := [.commit]) hb rfl, busTrace_commit hs]

theorem busTrace_store {o : StoreOp} (hc : (tableEntry c.op).cls = .store o) :
    busTrace 1 (midway s r pc c [.store] reads last) = [(.write, c.ea)] := by
  refine busTrace_last hs (x := ⟨c.ea, storeSrc o r, .write⟩) ?_
  change (store (tableEntry c.op).cls _).tx = _
  rw [hc]
  rfl

theorem busTrace_decode (hq : s.q = []) (hb : s.cfg.unmappedPolicy = .zero ∨ isMapped s.pc = true) :
    busTrace (n + 1) s = (.read, s.pc) :: busTrace n (midway s s.regs (s.pc + 1) s.scratch [.dispatch] [] s.pc) := by
  have hready : Ready s := ⟨hs.running, hq⟩
  rw [busTrace_succ hs, ← cycle_decodeStep hready hb, clk_ready hready,
    cycle_congr (act := clk) (act' := decodeStep) fun _ => clk_ready hready]
  rfl

end

section
variable {s : State} (hs : Due s) (hq : s.q = []) {op : Byte} {bs : List Byte} {e : Entry} (n : Nat)
include hs hq

/-- An instruction whose Dispatch leaves the transaction as it is: both ticks read the opcode (R152). -/
theorem busTrace_opcode (hbytes : encode (fetchInstr s) = op :: bs) (he : (fetchInstr s).entry = e)
    (hb : s.cfg.unmappedPolicy = .zero ∨ isMapped s.pc = true) (hd : ∀ u, (dispatch op e u).tx = u.tx) :
    busTrace 2 s = [(.read, s.pc), (.read, s.pc)] := by
  rw [busTrace_decode hs 1 hq hb,
    busTrace_last hs (x := ⟨s.pc, busByte s [] s.pc, .read⟩) (by rw [runMicroOp_dispatch hbytes he, hd]; rfl)]

/-- Decode and Dispatch of an instruction that fetches the byte after the opcode. -/
theorem busTrace_fetching (hbytes : encode (fetchInstr s) = op :: bs) (he : (fetchInstr s).entry = e) {q : List MicroOp}
    (hd : ∀ u, dispatch op e u = enqueue q (fetchOperand (setScratch { u.scratch with op := op } u)))
    (hb : BusClear s [s.pc, s.pc + 1]) :
    busTrace (n + 2) s = [(.read, s.pc), (.read, s.pc + 1)] ++
      busTrace n (midway s s.regs (s.pc + 2) { s.scratch with op := op } q [s.pc] (s.pc + 1)) := by
  have hpc : s.pc + 1 + 1 = s.pc + 2 := by rw [BitVec.add_assoc]; rfl
  rw [busTrace_decode hs (n + 1) hq (hb.of_mem (by simp)), ← hpc, busTrace_midway hs n (hb.of_mem (a := s.pc + 1) (by simp))
    ((runMicroOp_dispatch hbytes he).trans (by rw [hd]; rfl))]
  rfl

/-- The first three ticks of an instruction with a 16-bit operand. -/
theorem busTrace_absLo {b : Byte} (hbytes : encode (fetchInstr s) = op :: b :: bs) (he : (fetchInstr s).entry = e)
    (hdef : e.cls ≠ .undef) {q : List MicroOp}
    (hd : ∀ u, dispatch op e u = enqueue (.absLo :: q) (fetchOperand (setScratch { u.scratch with op := op } u)))
    (hb : BusClear s [s.pc, s.pc + 1, s.pc + 2]) :
    busTrace (n + 3) s = [(.read, s.pc), (.read, s.pc + 1), (.read, s.pc + 2)] ++
      busTrace n (midway s s.regs (s.pc + 3) { s.scratch with op := op, lo := b } q [s.pc, s.pc + 1] (s.pc + 2)) := by
  have hpc : s.pc + 2 + 1 = s.pc + 3 := by rw [BitVec.add_assoc]; rfl
  have hfirst : BusClear s [s.pc, s.pc + 1] := hb.imp_right fun h => by simp_all
  rw [busTrace_fetching hs hq (n + 1) hbytes he hd hfirst, ← hpc,
    busTrace_midway hs n (hb.of_mem (a := s.pc + 2) (by simp)) ((runMicroOp_absLo hbytes he hdef).trans rfl)]
  rfl

end

/-- The two tables agree on the number of ticks (R151, R152). -/
theorem length_busRow (i : Instr) (s : State) : (busRow i s).length = cpuTicks i s := by
  cases exec_runs i with
  | implied op o m run entry bytes => simp [busRow, cpuTicks, entry]
  | undefined op run entry bytes => simp [busRow, cpuTicks, entry]
  | immediate op o m run entry bytes => simp [busRow, cpuTicks, entry]
  | jump op a run entry bytes => simp [busRow, cpuTicks, entry]
  | zeroPage op c z cls run entry bytes =>
    obtain ⟨o, rfl⟩ | ⟨o, rfl⟩ := cls <;> simp [busRow, cpuTicks, entry]
  | absolute op c idx a cls run entry bytes =>
    obtain ⟨o, rfl⟩ | ⟨o, rfl⟩ := cls
    · rw [busRow_read s entry bytes, cpuTicks_read s entry bytes, List.length_append, List.length_map]
      rfl
    · rw [busRow_store (a := a) s entry, cpuTicks_store s entry bytes, List.length_append, List.length_map]
      rfl
  | branch op o off run entry bytes =>
    simp only [busRow, cpuTicks, entry]
    split
    · split <;> rfl
    · rfl

section
variable {s : State} (hs : Due s) (hq : s.q = []) {op : Byte} {c : OpClass} (hc : OperandClass c) (n : Nat)
include hs hq

/-- The trace of a branch (R147, R148, R152). -/
theorem busTrace_branch {o : BranchOp} {off : Byte} (hbytes : encode (fetchInstr s) = [op, off])
    (he : (fetchInstr s).entry = ⟨.branch o, .relative⟩) (hb : BusClear s [s.pc, s.pc + 1]) :
    busTrace (cpuTicks (fetchInstr s) s) s = busRow (fetchInstr s) s := by
  have hlast := hb.of_mem (a := s.pc + 1) (by simp)
  have hfetch := fun n => busTrace_fetching hs hq n (q := [.branchCheck]) hbytes he (fun _ => rfl) hb
  have hcheck := runMicroOp_branchCheck (q := []) (pc := s.pc + 2) (r := s.regs) (sc := s.scratch) hbytes he nofun
  have hcross : ((hiByte (operandTarget (fetchInstr s) s) != hiByte (s.pc + 2)) && s.cfg.branchPagePenalty) =
      (crossesPage (branchTarget (s.pc + 2) off) (s.pc + 2) && s.cfg.branchPagePenalty) := by
    rw [operandTarget, operandBytes, hbytes]
    rfl
  rw [cpuTicks_branch he hbytes]
  simp only [busRow, he, hcross]
  cases hcond : branchCond o s.regs.p with
  | false =>
    have hkept : branchCheck (.branch o) off (midway s s.regs (s.pc + 2) { s.scratch with op := op } [] [s.pc] (s.pc + 1)) =
        midway s s.regs (s.pc + 2) { s.scratch with op := op } [] [s.pc] (s.pc + 1) :=
      if_neg (by simpa [midway, ranReading] using hcond)
    rw [if_neg Bool.false_ne_true, hfetch 1, busTrace_last hs (x := ⟨s.pc + 1, busByte s [s.pc] (s.pc + 1), .read⟩)
      (by rw [hcheck, hkept]; rfl)]
    rfl
  | true =>
    have htaken := fun n => busTrace_midway hs n hlast (hcheck.trans (branchCheck_taken hcond .branchCheck))
    have hjump : ∀ n q reads, busTrace (n + 1) (midway s s.regs (s.pc + 2)
          { s.scratch with op := op, target := branchTarget (s.pc + 2) off } (.branchTake :: q) reads (s.pc + 1)) =
        (.read, s.pc + 1) :: busTrace n (midway s s.regs (branchTarget (s.pc + 2) off)
          { s.scratch with op := op, target := branchTarget (s.pc + 2) off } q (reads ++ [s.pc + 1]) (s.pc + 1)) :=
      fun n q reads => busTrace_midway hs n hlast rfl
    generalize (crossesPage (branchTarget (s.pc + 2) off) (s.pc + 2) && s.cfg.branchPagePenalty) = owed at htaken ⊢
    cases owed with
    | false =>
      simp only [if_true, Bool.false_eq_true, if_false, List.nil_append] at htaken ⊢
      rw [hfetch 2, htaken 1, hjump 0]
      rfl
    | true =>
      simp only [if_true, List.nil_append] at htaken ⊢
      rw [hfetch 3, htaken 2, hjump 1, busTrace_last hs rfl]
      rfl

include hc

/-- The trace of a zero-page instruction up to its data access (R139, R152). -/
theorem busTrace_zeroPage {z : Byte} (hbytes : encode (fetchInstr s) = [op, z]) (he : (fetchInstr s).entry = ⟨c, .zeroPage⟩)
    (hb : BusClear s [s.pc, s.pc + 1]) :
    busTrace (n + 3) s = [(.read, s.pc), (.read, s.pc + 1), (.read, s.pc + 1)] ++
      busTrace n (midway s s.regs (s.pc + 2) (scratchEa s op z (zext16 z)) (tailOps s.cfg c .noIndex false) [s.pc, s.pc + 1]
        (s.pc + 1)) := by
  rw [busTrace_fetching hs hq (n + 1) hbytes he (dispatch_zeroPage hc op) hb,
    busTrace_midway hs n (r' := s.regs) (pc' := s.pc + 2) (c' := scratchEa s op z (zext16 z)) (q' := tailOps s.cfg c .noIndex false)
      (hb.of_mem (a := s.pc + 1) (by simp)) ((runMicroOp_zpLo hbytes he hc.ne_undef).trans rfl)]
  rfl

/-- The trace of an absolute instruction up to its data access, a penalty tick included (R140-R143, R152). -/
theorem busTrace_absolute {idx : Index} {a : Addr} (hbytes : encode (fetchInstr s) = [op, loByte a, hiByte a])
    (he : (fetchInstr s).entry = ⟨c, .absolute idx⟩) (hb : BusClear s [s.pc, s.pc + 1, s.pc + 2]) {ms : List MicroOp}
    (hms : tailOps s.cfg c idx (indexCrosses a idx s.regs) = (if penaltyOwed c idx a s then [.penalty] else []) ++ ms) :
    ∃ reads, busTrace (n + (absoluteFetches s (penaltyOwed c idx a s)).length) s =
      (absoluteFetches s (penaltyOwed c idx a s)).map (Prod.mk .read) ++
        busTrace n (midway s s.regs (s.pc + 3) (scratchEa s op (loByte a) (indexedAddr a idx s.regs)) ms reads (s.pc + 2)) := by
  have hlast := hb.of_mem (a := s.pc + 2) (by simp)
  have habsHi : ∀ n, busTrace (n + 4) s =
      [(.read, s.pc), (.read, s.pc + 1), (.read, s.pc + 2), (.read, s.pc + 2)] ++
        busTrace n (midway s s.regs (s.pc + 3) (scratchEa s op (loByte a) (indexedAddr a idx s.regs))
          (tailOps s.cfg c idx (indexCrosses a idx s.regs)) ([s.pc, s.pc + 1] ++ [s.pc + 2]) (s.pc + 2)) := by
    intro n
    rw [busTrace_absLo hs hq (n + 1) hbytes he hc.ne_undef (dispatch_absolute hc op idx) hb,
      busTrace_midway hs n hlast ((runMicroOp_absHi hbytes he hc.ne_undef idx (loByte a)).trans
        (absHi_midway s s.regs (s.pc + 3) _ [] _ _ c idx rfl))]
    rfl
  refine ⟨[s.pc, s.pc + 1] ++ [s.pc + 2] ++ if penaltyOwed c idx a s then [s.pc + 2] else [], ?_⟩
  have hlen : n + (absoluteFetches s (penaltyOwed c idx a s)).length = (n + if penaltyOwed c idx a s then 1 else 0) + 4 := by
    cases penaltyOwed c idx a s <;> rfl
  rw [hlen, habsHi, hms, busTrace_penalty hs n hlast, ← List.append_assoc]
  congr 1
  cases penaltyOwed c idx a s <;> rfl

end

theorem BusClear.mono {s : State} {as bs : List Addr} (h : BusClear s as) (hsub : ∀ a ∈ bs, a ∈ as) : BusClear s bs :=
  h.imp_right fun hall => List.all_eq_true.mpr fun a ha => List.all_eq_true.mp hall a (hsub a ha)

theorem operandAddr_zeroPage {i : Instr} {c : OpClass} {op z : Byte} (he : i.entry = ⟨c, .zeroPage⟩) (hb : encode i = [op, z])
    (s : State) : operandAddr i s = zext16 z := by
  simp [operandAddr, he, operandBytes, hb, effectiveAddr]

/-- Settles O51: the row of each class and mode, its ticks traced in order. -/
theorem busTrafficFollowsTheTable : Obligations.BusTrafficFollowsTheTable := by
  intro s hbound i
  obtain ⟨hs, hq⟩ := (atBoundary_iff s).mp hbound
  refine ⟨length_busRow i s, fun hb => ?_⟩
  cases exec_runs i with
  | implied op o m run entry bytes =>
    have hrow : busRow i s = [(.read, s.pc), (.read, s.pc)] := by simp only [busRow, entry]
    rw [hrow] at hb
    rw [← length_busRow, hrow]
    exact busTrace_opcode hs hq bytes entry (hb.of_mem (by simp)) fun _ => rfl
  | undefined op run entry bytes =>
    have hrow : busRow i s = [(.read, s.pc), (.read, s.pc)] := by simp only [busRow, entry]
    rw [hrow] at hb
    rw [← length_busRow, hrow]
    exact busTrace_opcode hs hq bytes entry (hb.of_mem (by simp)) fun _ => by simp [dispatch, raiseHalt_eq]
  | immediate op o m run entry bytes =>
    have hrow : busRow i s = [(.read, s.pc), (.read, s.pc + 1), (.read, s.pc + 1)] := by simp only [busRow, entry]
    rw [hrow] at hb
    rw [← length_busRow, hrow]
    exact (busTrace_fetching hs hq 1 (q := [.commit]) bytes entry (fun _ => rfl) (hb.mono (by simp))).trans
      (congrArg _ (busTrace_commit hs))
  | jump op a run entry bytes =>
    have hrow : busRow i s = [(.read, s.pc), (.read, s.pc + 1), (.read, s.pc + 2), (.read, s.pc + 2)] := by
      simp only [busRow, entry]
    rw [hrow] at hb
    rw [← length_busRow, hrow]
    exact (busTrace_absLo hs hq 1 bytes entry nofun (dispatch_jump op) (hb.mono (by simp))).trans
      (congrArg _ (busTrace_last hs rfl))
  | branch op o off run entry bytes =>
    refine busTrace_branch hs hq bytes entry (hb.mono ?_)
    simp [busRow, entry]
  | zeroPage op c z cls run entry bytes =>
    obtain ⟨o, rfl⟩ | ⟨o, rfl⟩ := cls
    · have hrow : busRow i s = [(.read, s.pc), (.read, s.pc + 1), (.read, s.pc + 1), (.read, zext16 z), (.read, zext16 z)] := by
        simp only [busRow, entry, operandAddr_zeroPage entry bytes]
      rw [hrow] at hb
      rw [← length_busRow, hrow]
      exact (busTrace_zeroPage hs hq (.inl ⟨o, rfl⟩) 2 bytes entry (hb.mono (by simp))).trans
        (congrArg _ (busTrace_access_commit hs (.inr (isMapped_zext16 z))))
    · have hrow : busRow i s = [(.read, s.pc), (.read, s.pc + 1), (.read, s.pc + 1), (.write, zext16 z)] := by
        simp only [busRow, entry, operandAddr_zeroPage entry bytes]
      rw [hrow] at hb
      rw [← length_busRow, hrow]
      exact (busTrace_zeroPage hs hq (.inr ⟨o, rfl⟩) 1 bytes entry (hb.mono (by simp))).trans
        (congrArg _ (busTrace_store hs (congrArg Entry.cls (tableEntry_of_bytes bytes entry))))
  | absolute op c idx a cls run entry bytes =>
    obtain ⟨o, rfl⟩ | ⟨o, rfl⟩ := cls
    · rw [busRow_read s entry bytes, operandAddr_absolute entry bytes] at hb ⊢
      obtain ⟨reads, htrace⟩ := busTrace_absolute hs hq (.inl ⟨o, rfl⟩) 2 bytes entry (hb.mono (by simp [absoluteFetches]))
        (ms := [.access, .commit]) rfl
      rw [cpuTicks_read s entry bytes, Nat.add_comm]
      exact htrace.trans (congrArg _ (busTrace_access_commit hs (hb.of_mem (by simp))))
    · rw [busRow_store (a := a) s entry, operandAddr_absolute entry bytes] at hb ⊢
      obtain ⟨reads, htrace⟩ := busTrace_absolute hs hq (.inr ⟨o, rfl⟩) 1 bytes entry (hb.mono (by simp [absoluteFetches]))
        (ms := [.store]) rfl
      rw [cpuTicks_store s entry bytes, Nat.add_comm]
      exact htrace.trans (congrArg _ (busTrace_store hs (congrArg Entry.cls (tableEntry_of_bytes bytes entry))))

end Sys2Proof.Machine

/-! PROOFS. What a store changes (41_load_store_transfer.md §2, 20_memory.md §2), and that a step runs the instruction whose bytes stand at
`PC`, placed there by the host or not (40_scheduler.md §1, 30_encoding.md §1, 70_reset_and_hazards.md §2). -/

namespace Sys2Proof.Machine

/-! ### The byte a store changes -/

theorem memWrite_ram_of_not_ram {ea : Addr} (h : 0x2000 ≤ ea.toNat) (v : Byte) (s : State) : (memWrite ea v s).ram = s.ram := by
  obtain ⟨hlt, -⟩ | ⟨-, -, hd⟩ | ⟨-, -, hd⟩ | ⟨-, hd⟩ := decodeAddr_cases ea
  · exact absurd hlt (Nat.not_lt.mpr h)
  all_goals simp only [memWrite, hd, setPpu_ram]

/-- A bus write, of all bytes but the status register's, changes only the RAM byte it selects, in all its mirrors (R62). -/
theorem peek_memWrite {s : State} (hwf : s.ram.wf = true) (ea : Addr) (v : Byte) {a : Addr} (ha : isStatus a = false) :
    peek (memWrite ea v s) a =
      if ea.toNat < 0x2000 ∧ a.toNat < 0x2000 ∧ a.toNat % 2048 = ea.toNat % 2048 then v else peek s a := by
  by_cases hea : ea.toNat < 0x2000
  · rw [peek_memWrite_ram hwf hea]
    simp only [hea, true_and]
  · obtain ⟨m, l, hframe⟩ := memWrite_frame ea v s
    rw [if_neg fun h => hea h.1]
    exact peek_congr (memWrite_ram_of_not_ram (Nat.not_lt.mp hea) v s) (by rw [hframe]) ha

/-- A tick that writes, read afterwards (R346). -/
theorem peek_cycle_write {act : State → State} {u : State} (hend : (cycle act u).halt = none) {ea : Addr} {v : Byte}
    (hx : (act u).tx = ⟨ea, v, .write⟩) (hwf : (act u).ram.wf = true) {a : Addr} (ha : isStatus a = false) :
    peek (cycle act u) a =
      if ea.toNat < 0x2000 ∧ a.toNat < 0x2000 ∧ a.toNat % 2048 = ea.toNat % 2048 then v else peek (act u) a := by
  obtain ⟨hrun, hact, hclear⟩ := running_of_cycle hend
  rw [hx] at hclear
  rw [cycle_write hrun hact hx hclear, ← peek_memWrite hwf ea v ha]
  exact peek_congr rfl rfl ha

section
variable {s u : State} (hwf : s.ram.wf = true) {o : StoreOp} {pc : Addr} {sc : Scratch} {q : List MicroOp} {reads : List Addr}
  {last a : Addr} (hu : Along u (midway s s.regs pc sc q reads last)) (ha : isStatus a = false)
include hwf hu ha

/-- The Store tick, where it does not halt (R146). -/
theorem peek_cycle_store (h : (cycle (fun v => tailOp (.store o) .store (popQ v)) u).halt = none) :
    peek (cycle (fun v => tailOp (.store o) .store (popQ v)) u) a =
      if sc.ea.toNat < 0x2000 ∧ a.toNat < 0x2000 ∧ a.toNat % 2048 = sc.ea.toNat % 2048 then storeSrc o s.regs else peek s a := by
  obtain rfl := hu (running_of_cycle h).1
  rw [peek_cycle_write h (ea := sc.ea) (v := storeSrc o s.regs) rfl hwf ha]
  exact congrArg _ (peek_congr rfl rfl ha)

/-- The tail of a store, a penalty tick included (R142, R146). -/
theorem peek_runTail_store (idx : Index) (crossed : Bool)
    (h : (runTail (.store o) (tailOps s.cfg (.store o) idx crossed) u).halt = none) :
    peek (runTail (.store o) (tailOps s.cfg (.store o) idx crossed) u) a =
      if sc.ea.toNat < 0x2000 ∧ a.toNat < 0x2000 ∧ a.toNat % 2048 = sc.ea.toNat % 2048 then storeSrc o s.regs else peek s a := by
  unfold tailOps at h ⊢
  generalize ((idx != .noIndex) && s.cfg.idxPagePenalty) = owed at h ⊢
  cases owed with
  | false => exact peek_cycle_store hwf hu ha h
  | true => exact peek_cycle_store hwf (hu.tick (r' := s.regs) (pc' := pc) (c' := sc) (q' := q.tail)
      (act := fun v => tailOp (.store o) .penalty (popQ v)) rfl) ha h

end

/-- Settles O49: the tail of a store, from the effective address of each of its modes. -/
theorem storesChangeOnlyTheAddressedByte : Obligations.StoresChangeOnlyTheAddressedByte := by
  intro i o s t hcls hwf hexec _ hhalt a ha
  cases exec_runs i with
  | zeroPage op c z cls run entry bytes =>
    obtain rfl : c = .store o := by rw [← hcls, entry]
    obtain rfl := Host.Outcome.next.inj ((run s).symm.trans hexec)
    rw [operandAddr_zeroPage entry bytes]
    exact peek_runTail_store hwf (zpLo_along s cls z) ha .noIndex false hhalt
  | absolute op c idx b cls run entry bytes =>
    obtain rfl : c = .store o := by rw [← hcls, entry]
    obtain rfl := Host.Outcome.next.inj ((run s).symm.trans hexec)
    rw [operandAddr_absolute entry bytes]
    exact peek_runTail_store hwf (absHi_along s cls b) ha idx _ hhalt
  | implied op o m run entry bytes => exact nomatch (congrArg Entry.cls entry).symm.trans hcls
  | undefined op run entry bytes => exact nomatch (congrArg Entry.cls entry).symm.trans hcls
  | immediate op o m run entry bytes => exact nomatch (congrArg Entry.cls entry).symm.trans hcls
  | jump op a run entry bytes => exact nomatch (congrArg Entry.cls entry).symm.trans hcls
  | branch op o off run entry bytes => exact nomatch (congrArg Entry.cls entry).symm.trans hcls

/-! ### A step runs the instruction at `PC` -/

/-- Settles O5: the bytes at `PC` are those the fetch decodes. -/
theorem stepRunsTheDecodedInstruction : Obligations.StepRunsTheDecodedInstruction := by
  refine ⟨fun s i hb hwf hbytes => ?_, fun s hb => ?_⟩
  · have hencode : encode i = [peek s s.pc, peek s (s.pc + 1), peek s (s.pc + 2)].take i.length := by
      have hlen := i.length_le_three
      refine List.ext_getElem (by rw [encode_length, List.length_take]; simp; omega) fun k hk hk' => ?_
      have hbyte := hbytes k hk
      rw [List.getElem?_eq_getElem hk, Option.some.injEq] at hbyte
      rw [← hbyte, List.getElem_take]
      rw [encode_length] at hk
      have hk3 : k < 3 := by omega
      interval_cases k
      · simp
      · rfl
      · rfl
    rw [step, if_pos hb, fetchInstr, decodeBytes_eq_of_encode hwf hencode]
  · rw [step, if_neg (Bool.eq_false_iff.mp hb)]

/-! ### The instruction the host places -/

/-- What the host's placing needs of a state: byte stores in canonical form, and program storage. -/
def Placeable (s : State) : Prop := s.ram.wf = true ∧ s.cfg.prg.wf = true ∧ 1 ≤ s.cfg.prgBanks

/-- Loading a byte changes RAM and program storage only. -/
theorem loadByte_frame (a : Addr) (v : Byte) (s : State) :
    ∃ m p, loadByte a v s = { s with ram := m, cfg := { s.cfg with prg := p } } := by
  unfold loadByte
  cases decodeAddr a with
  | ram o => exact ⟨_, s.cfg.prg, rfl⟩
  | prg o => exact ⟨s.ram, _, rfl⟩
  | ppu o => exact ⟨s.ram, s.cfg.prg, rfl⟩
  | unmapped => exact ⟨s.ram, s.cfg.prg, rfl⟩

@[simp] theorem loadByte_pc (a : Addr) (v : Byte) (s : State) : (loadByte a v s).pc = s.pc := by
  obtain ⟨m, p, hframe⟩ := loadByte_frame a v s
  rw [hframe]

@[simp] theorem atBoundary_loadByte (a : Addr) (v : Byte) (s : State) : atBoundary (loadByte a v s) = atBoundary s := by
  obtain ⟨m, p, hframe⟩ := loadByte_frame a v s
  rw [hframe]
  rfl

theorem atBoundary_putAtBoundary (a : Addr) (s : State) : atBoundary (putAtBoundary a s) = true :=
  (atBoundary_iff _).mpr ⟨⟨rfl, rfl, Nat.mul_mod_left _ _⟩, rfl⟩

theorem Placeable.loadByte {s : State} (h : Placeable s) (a : Addr) (v : Byte) : Placeable (loadByte a v s) := by
  obtain ⟨hram, hprg, hbanks⟩ := h
  obtain ⟨hram', hprg'⟩ := loadByte_keeps_wf a v hram hprg
  obtain ⟨m, p, hframe⟩ := loadByte_frame a v s
  exact ⟨hram', hprg', by rw [hframe]; exact hbanks⟩

/-- What a byte loaded into RAM or program storage does to the bytes that are read: the loaded cell, in all its mirrors, holds it. -/
theorem peek_loadByte_ram {s : State} (h : Placeable s) {a : Addr} (ha : a.toNat < 0x2000) (v : Byte) (b : Addr) :
    peek (loadByte a v s) b = if b.toNat < 0x2000 ∧ b.toNat % 2048 = a.toNat % 2048 then v else peek s b := by
  rw [← peek_memWrite_ram h.1 ha, loadByte, memWrite, decodeAddr_ram ha]

theorem peek_loadByte_prg {s : State} (h : Placeable s) {a : Addr} (ha : 0x8000 ≤ a.toNat) (v : Byte) (b : Addr) :
    peek (loadByte a v s) b =
      if 0x8000 ≤ b.toNat ∧ (b.toNat - 0x8000) % s.cfg.prgLen = (a.toNat - 0x8000) % s.cfg.prgLen then v else peek s b := by
  rw [loadByte, decodeAddr_prg ha]
  obtain ⟨hb, hd⟩ | ⟨-, hb, hd⟩ | ⟨-, hb, hd⟩ | ⟨hb, hd⟩ := decodeAddr_cases b
  · rw [if_neg fun hcell => absurd hcell.1 (by omega)]
    simp only [peek, hd, setCfg_ram]
  · rw [if_neg fun hcell => absurd hcell.1 (by omega)]
    simp only [peek, hd, setCfg_ppu]
  · rw [if_neg fun hcell => absurd hcell.1 (by omega)]
    simp only [peek, hd]
  · simp [peek, hd, hb, prgByte, Config.prgLen, Memory.read_write h.2.1]

/-- The host finds a byte it has loaded where it loaded it. -/
theorem peek_loadByte_same {s : State} (h : Placeable s) {a : Addr} (ha : a.toNat < 0x2000 ∨ 0x8000 ≤ a.toNat) (v : Byte) :
    peek (loadByte a v s) a = v := by
  obtain ha | ha := ha
  · rw [peek_loadByte_ram h ha, if_pos ⟨ha, rfl⟩]
  · rw [peek_loadByte_prg h ha, if_pos ⟨ha, rfl⟩]

/-- The next two addresses do not mirror a loaded byte: RAM repeats after 2048 bytes, program storage after 16384 or more. -/
theorem peek_loadByte_next {s : State} (h : Placeable s) {a : Addr} (ha : a.toNat < 0x2000 ∨ 0x8000 ≤ a.toNat) (v : Byte) {k : Addr}
    (hk : k = 1 ∨ k = 2) : peek (loadByte a v s) (a + k) = peek s (a + k) := by
  have hsum : (a + k).toNat = (a.toNat + k.toNat) % 65536 := BitVec.toNat_add a k
  have hk' : k.toNat = 1 ∨ k.toNat = 2 := hk.imp (congrArg _) (congrArg _)
  have hlt := a.isLt
  obtain ha | ha := ha
  · rw [peek_loadByte_ram h ha, if_neg (by omega)]
  · rw [peek_loadByte_prg h ha, if_neg]
    rintro ⟨hge, hmod⟩
    have hlen : 16384 ≤ s.cfg.prgLen := Nat.le_mul_of_pos_right 16384 h.2.2
    have hdvd := (Nat.modEq_iff_dvd' (by omega)).mp hmod.symm
    have hle := Nat.le_of_dvd (by omega) hdvd
    omega

theorem toNat_of_isLoadable {a b : Addr} (h : isLoadable a = true) (hb : b ∈ [a, a + 1, a + 2]) :
    b.toNat < 0x2000 ∨ 0x8000 ≤ b.toNat := by
  have hload := List.all_eq_true.mp h b hb
  obtain ⟨hlt, -⟩ | ⟨-, -, hd⟩ | ⟨-, -, hd⟩ | ⟨hge, -⟩ := decodeAddr_cases b
  · exact .inl hlt
  · simp [hd] at hload
  · simp [hd] at hload
  · exact .inr hge

/-- Three bytes loaded from an address on are those read from it on. -/
theorem peek_loaded {s : State} (h : Placeable s) {a : Addr} (ha : isLoadable a = true) (v0 v1 v2 : Byte) :
    let s' := loadByte a v0 (loadByte (a + 1) v1 (loadByte (a + 2) v2 s))
    peek s' a = v0 ∧ peek s' (a + 1) = v1 ∧ peek s' (a + 2) = v2 := by
  have h2 := h.loadByte (a + 2) v2
  have h1 := h2.loadByte (a + 1) v1
  have ha0 := toNat_of_isLoadable ha (b := a) (by simp)
  have ha1 := toNat_of_isLoadable ha (b := a + 1) (by simp)
  have ha2 := toNat_of_isLoadable ha (b := a + 2) (by simp)
  have hnext : a + 2 = a + 1 + 1 := by rw [BitVec.add_assoc]; rfl
  refine ⟨peek_loadByte_same h1 ha0 v0, ?_, ?_⟩
  · rw [peek_loadByte_next h1 ha0 v0 (.inl rfl), peek_loadByte_same h2 ha1]
  · rw [peek_loadByte_next h1 ha0 v0 (.inr rfl), hnext, peek_loadByte_next (hnext ▸ h2) ha1 v1 (.inl rfl), ← hnext,
      peek_loadByte_same h ha2]

theorem decodeBytes_of_decodeTableWord {nbits w : Nat} {i : Instr} (h : decodeTableWord nbits w = some i) :
    decodeBytes (BitVec.ofNat 8 (w % 2 ^ nbits)) (BitVec.ofNat 8 (w % 2 ^ nbits / 256)) (BitVec.ofNat 8 (w % 2 ^ nbits / 65536)) = i := by
  rw [decodeTableWord, decode_cons_eq rfl (Instr.length_le_three _)] at h
  exact Option.some.inj h

/-- Settles O6: the state is put at a boundary, and its bytes at `PC` are those of the word. -/
theorem placedWordIsRunByTheNextStep : Obligations.PlacedWordIsRunByTheNextStep := by
  intro s nbits w i hbanks hprg hram hdecode
  have ha : isLoadable (if isLoadable s.pc then s.pc else 0x8000) = true := by
    split
    · assumption
    · decide
  rw [State.withFetchWord]
  generalize (if isLoadable s.pc then s.pc else 0x8000) = a at ha ⊢
  obtain ⟨h0, h1, h2⟩ := peek_loaded (s := putAtBoundary a s) ⟨hram, hprg, hbanks⟩ ha (BitVec.ofNat 8 (w % 2 ^ nbits))
    (BitVec.ofNat 8 (w % 2 ^ nbits / 256)) (BitVec.ofNat 8 (w % 2 ^ nbits / 65536))
  have hpc : (putAtBoundary a s).pc = a := rfl
  rw [step, if_pos (by simp [atBoundary_putAtBoundary]), fetchInstr]
  simp only [loadByte_pc, hpc, h0, h1, h2, decodeBytes_of_decodeTableWord hdecode]

end Sys2Proof.Machine
